-- ==== Sys2Proof/Word.lean ====
section
/-! DEFINITION. The word types of the AFE: 32-bit words, bytes, 7-bit slave addresses (spec 00 R7, R9; 10 R22). -/

namespace Sys2Proof

/-- A 32-bit word: a command word, a response data word or a G-word (R7, R9, R80). -/
abbrev Word := BitVec 32

/-- One byte of a bus transaction or of a sensor register (R50). -/
abbrev Byte := BitVec 8

/-- A 7-bit slave address (R22). -/
abbrev SlaveAddr := BitVec 7

end Sys2Proof
end

