-- ==== Sys2Proof/Syntax.lean ====
section
/-! DEFINITION. The seven commands of AFE-CMD 1 (R84), one constructor per row of the opcode table. -/

namespace Sys2Proof

/-- A decoded command with its operands (R81 to R83, R85). -/
inductive Instr where
  /-- CONFIGURE, format C (R82): range code and address select. -/
  | configure (range : BitVec 2) (asel : BitVec 1)
  /-- POWER_ON, format N (R81). -/
  | powerOn
  /-- READ_ACCEL, format N (R81). -/
  | readAccel
  /-- SELF_TEST, format N (R81). -/
  | selfTest
  /-- READ_OFFSET, format N (R81). -/
  | readOffset
  /-- WRITE_OFFSET, format O (R83): the three trim codes. -/
  | writeOffset (ox oy oz : Byte)
  /-- READ_DEVID, format N (R81). -/
  | readDevid
deriving DecidableEq, Repr

end Sys2Proof
end

