-- ==== Sys2Proof/Config.lean ====
section
/-! DEFINITION. The implementation parameters of R5: what an instance fixes, and the two open slave addresses. -/

namespace Sys2Proof

/-- The parameter set of R5. `FRAC_BITS` and `GW` are constants, not parameters. -/
structure Params where
  addrLow : SlaveAddr
  addrHigh : SlaveAddr
  rawSigned : Bool
  alphaNum : Nat
  alphaDen : Nat
  resetRange : BitVec 2
  resetAsel : BitVec 1
deriving DecidableEq, Repr

/-- `ADDR_LOW`, OPEN in R5 (D13): no body, so no proof can see its value (log 1). -/
opaque Config.addrLow : SlaveAddr

/-- `ADDR_HIGH`, OPEN in R5 (D13): no body, and not known to differ from `ADDR_LOW` (log 1). -/
opaque Config.addrHigh : SlaveAddr

/-- The values this hardware takes (R5). -/
def Config.params : Params where
  addrLow := Config.addrLow
  addrHigh := Config.addrHigh
  rawSigned := true
  alphaNum := 1
  alphaDen := 5
  resetRange := 3#2
  resetAsel := 0#1

/-- The source's "simpler variant" of R6, for given addresses: no filter. -/
def Config.simplerVariant (p : Params) : Params := { p with alphaNum := 1, alphaDen := 1 }

/-- The reference source's unsigned combination of the two bytes (R5, R141, C1). -/
def Config.legacyUnsigned (p : Params) : Params := { p with rawSigned := false }

end Sys2Proof
end

