-- ==== Sys2Proof/WellFormed.lean ====
section
/-! DEFINITION. Well-formedness: of a parameter set (R5) and of a command (R82, R83). -/

namespace Sys2Proof

/-- R5: `1 <= ALPHA_NUM <= ALPHA_DEN`; a model refuses any other parameter set. -/
def Params.wf (p : Params) : Bool := decide (1 ≤ p.alphaNum) && decide (p.alphaNum ≤ p.alphaDen)

/-- R82: "All four RANGE values and both ASEL values are legal"; R83: "Every value of OX, OY and OZ is legal".
The operand types hold exactly the legal values, so every term of `Instr` is well-formed. -/
def Instr.wf : Instr → Bool
  | .configure _ _ => true
  | .powerOn => true
  | .readAccel => true
  | .selfTest => true
  | .readOffset => true
  | .writeOffset _ _ _ => true
  | .readDevid => true

end Sys2Proof
end

