-- ==== Sys2Proof/Decode.lean ====
section
/-! DEFINITION. The command word: decoder (R85, R89), encoder (R80 to R84) and the opcode table's rows (R84). -/

namespace Sys2Proof

/-- Why a word is illegal: the four cases of R89. -/
inductive Illegal where
  /-- R89 (a): `OPC` is 0x0 or 0x8 to 0xF. -/
  | reservedOpcode
  /-- R89 (b): `RSV != 0`. -/
  | reservedField
  /-- R89 (c): a format-N opcode with `OPND != 0`. -/
  | operandNotZero
  /-- R89 (d): CONFIGURE with `OPND[23:3] != 0`. -/
  | mbzNotZero
deriving DecidableEq, Repr

/-- The decoder's answer: a command or an illegality, by name (R85). -/
inductive Decoded where
  | cmd (i : Instr)
  | illegal (why : Illegal)
deriving DecidableEq, Repr

/-- Bits 31:28 (R80). -/
def opcField (w : Word) : BitVec 4 := w.extractLsb' 28 4
/-- Bits 27:24 (R80). -/
def rsvField (w : Word) : BitVec 4 := w.extractLsb' 24 4
/-- Bits 23:0 (R80). -/
def opndField (w : Word) : BitVec 24 := w.extractLsb' 0 24
/-- Bits 23:3 of format C (R82). -/
def mbzField (w : Word) : BitVec 21 := w.extractLsb' 3 21
/-- Bit 2 of format C (R82). -/
def aselField (w : Word) : BitVec 1 := w.extractLsb' 2 1
/-- Bits 1:0 of format C (R82). -/
def rangeField (w : Word) : BitVec 2 := w.extractLsb' 0 2
/-- Bits 7:0 of format O (R83). -/
def oxField (w : Word) : Byte := w.extractLsb' 0 8
/-- Bits 15:8 of format O (R83). -/
def oyField (w : Word) : Byte := w.extractLsb' 8 8
/-- Bits 23:16 of format O (R83). -/
def ozField (w : Word) : Byte := w.extractLsb' 16 8

/-- A format-N command: the operand field must be zero (R81). -/
def decodeN (i : Instr) (w : Word) : Decoded :=
  if opndField w = 0#24 then .cmd i else .illegal .operandNotZero

/-- R85: total on every 32-bit word. -/
def decode (w : Word) : Decoded :=
  if rsvField w ≠ 0#4 then .illegal .reservedField
  else if opcField w = 0x1#4 then
    (if mbzField w = 0#21 then .cmd (.configure (rangeField w) (aselField w)) else .illegal .mbzNotZero)
  else if opcField w = 0x2#4 then decodeN .powerOn w
  else if opcField w = 0x3#4 then decodeN .readAccel w
  else if opcField w = 0x4#4 then decodeN .selfTest w
  else if opcField w = 0x5#4 then decodeN .readOffset w
  else if opcField w = 0x6#4 then .cmd (.writeOffset (oxField w) (oyField w) (ozField w))
  else if opcField w = 0x7#4 then decodeN .readDevid w
  else .illegal .reservedOpcode

/-- The word of a command, from its three fields `OPC`, `RSV = 0` and `OPND` (R80). -/
def commandWord (opc : BitVec 4) (opnd : BitVec 24) : Word := opc ++ (0#4 ++ opnd)

/-- The encoder, written from the layouts of R81, R82 and R83 and the opcode map of R84. -/
def encode : Instr → Word
  | .configure range asel => commandWord 0x1#4 (0#21 ++ (asel ++ range))
  | .powerOn => commandWord 0x2#4 0#24
  | .readAccel => commandWord 0x3#4 0#24
  | .selfTest => commandWord 0x4#4 0#24
  | .readOffset => commandWord 0x5#4 0#24
  | .writeOffset ox oy oz => commandWord 0x6#4 (oz ++ (oy ++ ox))
  | .readDevid => commandWord 0x7#4 0#24

/-- CONFIGURE is the one command that an unconfigured engine runs (R103). -/
def Instr.isConfigure : Instr → Bool
  | .configure _ _ => true
  | .powerOn => false
  | .readAccel => false
  | .selfTest => false
  | .readOffset => false
  | .writeOffset _ _ _ => false
  | .readDevid => false

/-- One row of the opcode map (R84): the mnemonic, its match and its mask. -/
structure Row where
  mnemonic : String
  pattern : Word
  mask : Word
deriving DecidableEq, Repr

/-- The row a command belongs to (R84). -/
def Instr.row : Instr → Row
  | .configure _ _ => ⟨"CONFIGURE", 0x10000000#32, 0xFFFFFFF8#32⟩
  | .powerOn => ⟨"POWER_ON", 0x20000000#32, 0xFFFFFFFF#32⟩
  | .readAccel => ⟨"READ_ACCEL", 0x30000000#32, 0xFFFFFFFF#32⟩
  | .selfTest => ⟨"SELF_TEST", 0x40000000#32, 0xFFFFFFFF#32⟩
  | .readOffset => ⟨"READ_OFFSET", 0x50000000#32, 0xFFFFFFFF#32⟩
  | .writeOffset _ _ _ => ⟨"WRITE_OFFSET", 0x60000000#32, 0xFF000000#32⟩
  | .readDevid => ⟨"READ_DEVID", 0x70000000#32, 0xFFFFFFFF#32⟩

/-- The opcode map of R84, in its order. -/
def opcodeMap : List Row :=
  [Instr.row (.configure 0#2 0#1), Instr.row .powerOn, Instr.row .readAccel, Instr.row .selfTest,
   Instr.row .readOffset, Instr.row (.writeOffset 0#8 0#8 0#8), Instr.row .readDevid]

/-- R84: a word `w` selects a row when `(w & mask) = match`. -/
def Row.selects (r : Row) (w : Word) : Bool := (w &&& r.mask) == r.pattern

/-- The instruction the decoder reads from the bits the opcode table numbers: the command port moves a whole word, so no byte
order arises (R58, R80; log 13), and bits from `nbits` up are zero. More than 32 bits are no command word. -/
def decodeTableWord (nbits w : Nat) : Option Instr :=
  if nbits ≤ 32 then
    match decode (BitVec.ofNat 32 (w % 2 ^ nbits)) with
    | .cmd i => some i
    | .illegal _ => none
  else none

end Sys2Proof
end

