-- ==== Sys2Proof/Machine/State.lean ====
section
/-! DEFINITION. The state of one AFE instance (R20), its ports, its observations (R55, R87) and the outside agents held as
data (log 2); the reasons a step can stop; the state after reset (R34, R250). -/

namespace Sys2Proof.Machine

/-- `SEQ` (R27): the command engine's phase. Codes 5, 6 and 7 are unused (I15, log 6). -/
inductive Phase where
  | idle
  | xfer
  | stEnter
  | stCapture
  | stRestore
deriving DecidableEq, Repr

/-- The 3-bit value of `SEQ` (R27). -/
def Phase.code : Phase → BitVec 3
  | .idle => 0#3
  | .xfer => 1#3
  | .stEnter => 2#3
  | .stCapture => 3#3
  | .stRestore => 4#3

/-- A bus transaction record: `Write{sa, bytes}` whose first byte is the register offset (R53), or `Read{sa, reg, count}`
(R54). -/
inductive Txn where
  | write (sa : SlaveAddr) (bytes : List Byte)
  | read (sa : SlaveAddr) (reg : Byte) (count : Nat)
deriving DecidableEq, Repr

/-- The six bytes of a data read, in register order (R140). -/
structure Six where
  b0 : Byte
  b1 : Byte
  b2 : Byte
  b3 : Byte
  b4 : Byte
  b5 : Byte
deriving DecidableEq, Repr

/-- One draw of the environment (R56): `Fail`, or `Ok` with bytes. A draw holds six free bytes; a transaction that reads `n`
takes the first `n`, so an answer has exactly `n` bytes (R54; log 3). -/
inductive Draw where
  | fail
  | ok (b : Six)
deriving DecidableEq, Repr

/-- An answer as the history records it: `Fail`, or `Ok` with exactly the bytes of the transaction (none for a write). -/
inductive Answer where
  | fail
  | ok (bytes : List Byte)
deriving DecidableEq, Repr

/-- One event of the history (R55): the transaction and its answer; `none` is `Pending`. -/
structure TxnEvent where
  txn : Txn
  answer : Option Answer
deriving DecidableEq, Repr

/-- One response (R87). -/
structure Response where
  status : Byte
  d0 : Word
  d1 : Word
  d2 : Word
deriving DecidableEq, Repr

/-- What the outside agents do (R100): the host presents the word it holds, the environment answers the outstanding
transaction, the platform raises reset. -/
inductive Event where
  | present
  | answer (d : Draw)
  | reset
deriving DecidableEq, Repr

/-- The state: the thirteen fields of R20, then ports and observations, then the outside agents. -/
structure State where
  cfgRange : BitVec 2
  cfgAsel : BitVec 1
  configured : Bool
  filtX : Word
  filtY : Word
  filtZ : Word
  seq : Phase
  cmdLatch : Word
  failLatch : BitVec 3
  dataLatch0 : Word
  dataLatch1 : Word
  dataLatch2 : Word
  outTxn : Option Txn
  /-- The answer standing on the bus-master port during an answer step (R100, R104). -/
  busAns : Option Draw
  /-- R55, newest first. -/
  history : List TxnEvent
  /-- The responses emitted so far (R105), newest first. -/
  responses : List Response
  /-- The words the host holds, the first one on the command port (R101; log 2). -/
  hostWords : List Word
  /-- What the outside agents do next (log 2). -/
  events : List Event
deriving DecidableEq, Repr

/-- Why the machine stops. Every one is a stuck state of the spec or a state no run reaches. -/
inductive Fault where
  /-- Raised by `step` when the engine is idle and no agent does anything: no step is enabled (R101). Safe (log 4). -/
  | noCommand
  /-- Raised by `step`, and by a meaning run without an answer, while a transaction is outstanding: "the AFE has no step"
  (R104, I8). Safe (log 4). -/
  | noAnswer
  /-- Raised by `step` or a meaning in a phase or with a latched word for which the spec gives the command no continuation
  (R104); no run from reset reaches one (R27, I15). Safe (log 5). -/
  | noContinuation
deriving DecidableEq, Repr

/-- Why an instruction has no meaning. -/
inductive Refusal where
  /-- Raised by an arm of `exec` whose instruction is not modelled. Safe. No arm uses it: all seven commands are modelled. -/
  | notModelled (mnemonic : String)
deriving DecidableEq, Repr

/-- The outcome of a step of this machine. -/
abbrev Result := Host.Outcome State Fault Refusal

/-- The reset values of R34 for a parameter set; ports, observations and outside agents empty (log 7). -/
def State.resetOf (p : Params) : State where
  cfgRange := p.resetRange
  cfgAsel := p.resetAsel
  configured := false
  filtX := 0#32
  filtY := 0#32
  filtZ := 0#32
  seq := .idle
  cmdLatch := 0#32
  failLatch := 0#3
  dataLatch0 := 0#32
  dataLatch1 := 0#32
  dataLatch2 := 0#32
  outTxn := none
  busAns := none
  history := []
  responses := []
  hostWords := []
  events := []

/-- The machine right after reset (R34, R250, R252). -/
def State.reset : State := State.resetOf Config.params

end Sys2Proof.Machine
end

