-- ==== Sys2Proof/Machine/Operands.lean ====
section
/-! DEFINITION. Operand forms: the register map's constants (R52), the bytes written (R60, R160), the extensions (R8, R86), the
sensitivity and scale tables (R24), byte reconstruction (R140, R141) and the scaling engine (R142, R143). -/

namespace Sys2Proof.Machine

/-- R52. -/
def regDevid : Byte := 0x00#8
/-- R52; `OFS_Y` = 0x1F and `OFS_Z` = 0x20 follow it. -/
def regOfsX : Byte := 0x1E#8
/-- R52. -/
def regPowerCtl : Byte := 0x2D#8
/-- R52. -/
def regDataFormat : Byte := 0x31#8
/-- R52: the first of the six data registers. -/
def regDataX0 : Byte := 0x32#8
/-- R52: the power-control "measurement" bit. -/
def pwrMeasure : Byte := 0x08#8
/-- R52: the full-resolution bit, which no command writes (R51, I3). -/
def dfFullRes : Byte := 0x04#8
/-- R52: the data-format self-test bit. -/
def dfSelfTest : Byte := 0x80#8

/-- `sext_32` of a byte (R8). -/
def sext32 (b : Byte) : Word := b.signExtend 32
/-- `zext_32` of a byte (R8). -/
def zext32 (b : Byte) : Word := b.zeroExtend 32
/-- `zext_8` of a range code (R8, R86): the data-format byte of CONFIGURE (R121). -/
def rangeByte (rc : BitVec 2) : Byte := rc.zeroExtend 8
/-- `ST_ENTER_BYTE` (R160). -/
def stEnterByte (rc : BitVec 2) : Byte := dfSelfTest ||| rangeByte rc
/-- `ST_RESTORE_BYTE` (R160). -/
def stRestoreByte (rc : BitVec 2) : Byte := rangeByte rc

/-- `SENS` (R24): 9 bits, in LSB/g. -/
def sens (rc : BitVec 2) : BitVec 9 := 256#9 >>> rc.toNat
/-- `SCALE` (R24): 12 bits. -/
def scaleFactor (rc : BitVec 2) : BitVec 12 := 256#12 <<< rc.toNat

/-- Three values, one per axis (R12: AccelerationSample, FilterState). -/
structure Sample where
  x : Word
  y : Word
  z : Word
deriving DecidableEq, Repr

/-- R140: `b[2i+1] ++ b[2i]`. -/
def raw16 (low high : Byte) : BitVec 16 := high ++ low

/-- R141: the channel value as an exact integer. -/
def channelValue (p : Params) (v : BitVec 16) : Int := if p.rawSigned then v.toInt else (v.toNat : Int)

/-- The scaling engine (R142): the exact product, low 32 bits. -/
def scale (v : Int) (rc : BitVec 2) : Word := BitVec.ofInt 32 (v * ((scaleFactor rc).toNat : Int))

/-- One lane of the conversion (R140 to R142). -/
def convertAxis (p : Params) (rc : BitVec 2) (low high : Byte) : Word := scale (channelValue p (raw16 low high)) rc

/-- R143: three independent lanes. -/
def convert (p : Params) (b : Six) (rc : BitVec 2) : Sample :=
  ⟨convertAxis p rc b.b0 b.b1, convertAxis p rc b.b2 b.b3, convertAxis p rc b.b4 b.b5⟩

end Sys2Proof.Machine
end

