-- ==== Sys2Proof/Machine/Filter.lean ====
section
/-! DEFINITION. The low-pass filter: one step (R180) and its iteration under a constant input (R183, R184). -/

namespace Sys2Proof.Machine

/-- `floor_div(a, d)` (R8): rounds toward negative infinity. -/
def floorDiv (a d : Int) : Int := a.fdiv d

/-- The exact numerator of the filter step (R180). -/
def filterNum (p : Params) (y x : Int) : Int := (p.alphaNum : Int) * x + ((p.alphaDen : Int) - p.alphaNum) * y

/-- `Filter(Y, X)` (R180): the old value first, then the new input. -/
def filter (p : Params) (y x : Word) : Word :=
  BitVec.ofInt 32 (floorDiv (filterNum p y.toInt x.toInt) p.alphaDen)

/-- The filter's value after `n` steps under the constant input `x` from `y` (R183, R184). -/
def filterRun (p : Params) (x y : Word) : Nat → Word
  | 0 => y
  | n + 1 => filter p (filterRun p x y n) x

end Sys2Proof.Machine
end

