-- ==== Sys2Proof/Machine/Flags.lean ====
section
/-! DEFINITION. Status: the response codes (R87, R220), the failure flags (R29, R221) and the STATUS byte (R87, R105). -/

namespace Sys2Proof.Machine

/-- `CODE` (R87, R220). Values 4 to 15 are never produced (I14). -/
inductive Code where
  | ok
  | transportFail
  | illegalCommand
  | notConfigured
deriving DecidableEq, Repr

/-- The 4-bit value of `CODE` (R87). -/
def Code.bits : Code → BitVec 4
  | .ok => 0#4
  | .transportFail => 1#4
  | .illegalCommand => 2#4
  | .notConfigured => 3#4

/-- FAIL_MAIN: bit 0 of `FAIL_LATCH` (R29, R221). -/
def failMain : BitVec 3 := 0b001#3
/-- FAIL_CAPTURE: bit 1 (R29, R221). -/
def failCapture : BitVec 3 := 0b010#3
/-- FAIL_RESTORE: bit 2 (R29, R221). -/
def failRestore : BitVec 3 := 0b100#3

/-- `code(FL)` (R161). -/
def codeOf (flags : BitVec 3) : Code := if flags = 0#3 then .ok else .transportFail

/-- `STATUS = 0 ++ flags[2:0] ++ code[3:0]` (R105). -/
def statusByte (code : Code) (flags : BitVec 3) : Byte := 0#1 ++ (flags ++ code.bits)

/-- R105: a data word is sent only when the code is OK (R88). -/
def dataWord (code : Code) (d : Word) : Word := if code = .ok then d else 0#32

/-- The response that `complete(code, flags, d0, d1, d2)` emits (R105). -/
def responseOf (code : Code) (flags : BitVec 3) (d0 d1 d2 : Word) : Response :=
  ⟨statusByte code flags, dataWord code d0, dataWord code d1, dataWord code d2⟩

/-- The status fields of a response (R87). -/
def Response.code (r : Response) : BitVec 4 := r.status.extractLsb' 0 4
/-- STATUS bits 6:4: FAIL_RESTORE ++ FAIL_CAPTURE ++ FAIL_MAIN (R87). -/
def Response.flags (r : Response) : BitVec 3 := r.status.extractLsb' 4 3

end Sys2Proof.Machine
end

