-- ==== Sys2Proof/Machine/Ops.lean ====
section
/-! DEFINITION. The shared operations over the state: slave address (R22), transactions (R53 to R55, R60), acceptance (R101),
answers (R104), failure (R221), completion (R105), capture (R144), reset (R250), and the shape of a one-transaction command.
The AFE has no traps (R224): an error ends its command through `complete`, which is this file's one error exit. -/

namespace Sys2Proof.Machine

/-- `SA` for an address-select value (R22). -/
def slaveAddr (p : Params) (asel : BitVec 1) : SlaveAddr := if asel = 0#1 then p.addrLow else p.addrHigh

/-- `SA(s)` (R22). -/
def sa (p : Params) (s : State) : SlaveAddr := slaveAddr p s.cfgAsel

/-- The record of `MemWrite(reg, n, data)` (R53). -/
def writeTxn (a : SlaveAddr) (reg : Byte) (data : List Byte) : Txn := .write a (reg :: data)

/-- The record of `MemRead(reg, n)` (R54). -/
def readTxn (a : SlaveAddr) (reg : Byte) (n : Nat) : Txn := .read a reg n

/-- CONFIGURE's write, to the newly selected address (R120, R60). -/
def configureTxn (p : Params) (range : BitVec 2) (asel : BitVec 1) : Txn :=
  writeTxn (slaveAddr p asel) regDataFormat [rangeByte range]

/-- POWER_ON's write (R122, R60). -/
def powerOnTxn (p : Params) (s : State) : Txn := writeTxn (sa p s) regPowerCtl [pwrMeasure]

/-- The six-byte data read of READ_ACCEL and of SELF_TEST's capture (R145, R161, R60). -/
def dataTxn (p : Params) (s : State) : Txn := readTxn (sa p s) regDataX0 6

/-- SELF_TEST's enter write (R160, R161). -/
def enterTxn (p : Params) (s : State) : Txn := writeTxn (sa p s) regDataFormat [stEnterByte s.cfgRange]

/-- SELF_TEST's restoration write (R160, R161). -/
def restoreTxn (p : Params) (s : State) : Txn := writeTxn (sa p s) regDataFormat [stRestoreByte s.cfgRange]

/-- READ_OFFSET's read (R200). -/
def readOffsetTxn (p : Params) (s : State) : Txn := readTxn (sa p s) regOfsX 3

/-- WRITE_OFFSET's write, in X, Y, Z order (R201, R58). -/
def writeOffsetTxn (p : Params) (ox oy oz : Byte) (s : State) : Txn := writeTxn (sa p s) regOfsX [ox, oy, oz]

/-- READ_DEVID's read (R202). -/
def devidTxn (p : Params) (s : State) : Txn := readTxn (sa p s) regDevid 1

/-- The six bytes in register order. -/
def Six.toList (b : Six) : List Byte := [b.b0, b.b1, b.b2, b.b3, b.b4, b.b5]

/-- The answer a draw is to a transaction (R53, R54): an `Ok` write carries no byte, an `Ok` read exactly `count` bytes. -/
def answerTo (t : Txn) (d : Draw) : Answer :=
  match t, d with
  | _, .fail => .fail
  | .write _ _, .ok _ => .ok []
  | .read _ _ n, .ok b => .ok (b.toList.take n)

/-- The latch writes of the accept step (R101). -/
def latchCommand (w : Word) (s : State) : State :=
  { s with cmdLatch := w, failLatch := 0#3, dataLatch0 := 0#32, dataLatch1 := 0#32, dataLatch2 := 0#32, busAns := none }

/-- Issue a transaction and enter a phase (R103, R161): it becomes `OUT_TXN` and the last, pending event of the history
(R55). -/
def issue (ph : Phase) (t : Txn) (s : State) : State :=
  { s with seq := ph, outTxn := some t, busAns := none, history := ⟨t, none⟩ :: s.history }

/-- The first half of the answer step (R104): `OUT_TXN <- None`, the answer stands on the port and in the history. -/
def takeAnswer (t : Txn) (d : Draw) (s : State) : State :=
  { s with outTxn := none, busAns := some d, history := ⟨t, some (answerTo t d)⟩ :: s.history.tail }

/-- `complete(code, flags, d0, d1, d2)` (R105): one response, and the engine is idle again. -/
def complete (code : Code) (flags : BitVec 3) (d0 d1 d2 : Word) (s : State) : State :=
  { s with
    seq := .idle, outTxn := none, busAns := none, cmdLatch := 0#32, failLatch := 0#3,
    dataLatch0 := 0#32, dataLatch1 := 0#32, dataLatch2 := 0#32,
    responses := responseOf code flags d0 d1 d2 :: s.responses }

/-- Set a failure flag (R161, R221). -/
def setFlag (flag : BitVec 3) (s : State) : State := { s with failLatch := s.failLatch ||| flag }

/-- `raise TransportFailure(FAIL_MAIN)` in a command of one transaction (R221): set the flag and complete at once. -/
def failCommand (s : State) : State :=
  let f := setFlag failMain s
  complete .transportFail f.failLatch 0#32 0#32 0#32 f

/-- The refusal of a command while `CONFIGURED = 0` (R103). -/
def refuseUnconfigured (s : State) : State := complete .notConfigured 0#3 0#32 0#32 0#32 s

/-- The refusal of an illegal word (R89, R103). -/
def refuseIllegal (s : State) : State := complete .illegalCommand 0#3 0#32 0#32 0#32 s

/-- The filter registers after a capture of `b` (R144, R181): each axis reads its own old value and its own bytes. -/
def captured (p : Params) (b : Six) (s : State) : Sample :=
  let g := convert p b s.cfgRange
  ⟨filter p s.filtX g.x, filter p s.filtY g.y, filter p s.filtZ g.z⟩

/-- `Capture` (R144): update `FILT_X`, `FILT_Y`, `FILT_Z`. -/
def capture (p : Params) (b : Six) (s : State) : State :=
  let f := captured p b s
  { s with filtX := f.x, filtY := f.y, filtZ := f.z }

/-- `DL <- Capture(b)` (R161): the capture, its values also kept in the data latches. -/
def captureToLatch (p : Params) (b : Six) (s : State) : State :=
  let f := captured p b s
  { capture p b s with dataLatch0 := f.x, dataLatch1 := f.y, dataLatch2 := f.z }

/-- A successful CONFIGURE's writes (R120). -/
def configureState (range : BitVec 2) (asel : BitVec 1) (s : State) : State :=
  { s with cfgRange := range, cfgAsel := asel, configured := true, filtX := 0#32, filtY := 0#32, filtZ := 0#32 }

/-- The reset event (R250): every field of R20 at its reset value; the history (log 8), the emitted responses and the outside
agents stay. -/
def resetEvent (p : Params) (s : State) : State :=
  { State.resetOf p with history := s.history, responses := s.responses, hostWords := s.hostWords, events := s.events }

/-- A command of one transaction (R103, R104, R221): in `IDLE` issue it, refused first if the command needs a configured
engine; in `XFER` complete with the answer. No other phase is one of its own (log 5). -/
def oneTransaction (needsConfig : Bool) (t : Txn) (onOk : Six → State → State) (s : State) : Result :=
  match s.seq, s.busAns with
  | .idle, _ => if needsConfig && !s.configured then .next (refuseUnconfigured s) else .next (issue .xfer t s)
  | .xfer, some .fail => .next (failCommand s)
  | .xfer, some (.ok b) => .next (onOk b s)
  | .xfer, none => .fault .noAnswer
  | .stEnter, _ => .fault .noContinuation
  | .stCapture, _ => .fault .noContinuation
  | .stRestore, _ => .fault .noContinuation

end Sys2Proof.Machine
end

