-- ==== Sys2Proof/Machine/Acquisition.lean ====
section
/-! DEFINITION. The acquisition family: READ_ACCEL (R145). -/

namespace Sys2Proof.Machine

/-- READ_ACCEL (R145): read six bytes, capture, return the new filter values; accepted whether or not POWER_ON has run
(R123). -/
def readAccelWith (p : Params) (s : State) : Result :=
  oneTransaction true (dataTxn p s)
    (fun b t => let c := capture p b t
                complete .ok 0#3 c.filtX c.filtY c.filtZ c) s

/-- READ_ACCEL on this hardware. -/
def execReadAccel (s : State) : Result := readAccelWith Config.params s

end Sys2Proof.Machine
end

