-- ==== Sys2Proof/Machine/Configuration.lean ====
section
/-! DEFINITION. The configuration family: CONFIGURE (R120) and POWER_ON (R122). -/

namespace Sys2Proof.Machine

/-- CONFIGURE (R120) under a parameter set; never refused for NOT_CONFIGURED. -/
def configureWith (p : Params) (range : BitVec 2) (asel : BitVec 1) (s : State) : Result :=
  oneTransaction false (configureTxn p range asel)
    (fun _ t => complete .ok 0#3 0#32 0#32 0#32 (configureState range asel t)) s

/-- POWER_ON (R122): no AFE state but the response. -/
def powerOnWith (p : Params) (s : State) : Result :=
  oneTransaction true (powerOnTxn p s) (fun _ t => complete .ok 0#3 0#32 0#32 0#32 t) s

/-- CONFIGURE on this hardware. -/
def execConfigure (range : BitVec 2) (asel : BitVec 1) (s : State) : Result := configureWith Config.params range asel s

/-- POWER_ON on this hardware. -/
def execPowerOn (s : State) : Result := powerOnWith Config.params s

end Sys2Proof.Machine
end

