-- ==== Sys2Proof/Machine/Offset.lean ====
section
/-! DEFINITION. Offset calibration and identification: READ_OFFSET (R200), WRITE_OFFSET (R201), READ_DEVID (R202). -/

namespace Sys2Proof.Machine

/-- READ_OFFSET (R200): three bytes, each sign-extended; no scaling. -/
def readOffsetWith (p : Params) (s : State) : Result :=
  oneTransaction true (readOffsetTxn p s)
    (fun b t => complete .ok 0#3 (sext32 b.b0) (sext32 b.b1) (sext32 b.b2) t) s

/-- WRITE_OFFSET (R201): the three trim codes unchanged, in one transaction. -/
def writeOffsetWith (p : Params) (ox oy oz : Byte) (s : State) : Result :=
  oneTransaction true (writeOffsetTxn p ox oy oz s) (fun _ t => complete .ok 0#3 0#32 0#32 0#32 t) s

/-- READ_DEVID (R202): the ID byte zero-extended, whatever it is (R204). -/
def readDevidWith (p : Params) (s : State) : Result :=
  oneTransaction true (devidTxn p s) (fun b t => complete .ok 0#3 (zext32 b.b0) 0#32 0#32 t) s

/-- READ_OFFSET on this hardware. -/
def execReadOffset (s : State) : Result := readOffsetWith Config.params s

/-- WRITE_OFFSET on this hardware. -/
def execWriteOffset (ox oy oz : Byte) (s : State) : Result := writeOffsetWith Config.params ox oy oz s

/-- READ_DEVID on this hardware. -/
def execReadDevid (s : State) : Result := readDevidWith Config.params s

end Sys2Proof.Machine
end

