-- ==== Sys2Proof/Machine/SelfTest.lean ====
section
/-! DEFINITION. The self-test sequencer and SELF_TEST (R161, R162). -/

namespace Sys2Proof.Machine

/-- The move to `ST_RESTORE` (R161): the restoration write is issued on every path (R163, R165). -/
def toRestore (p : Params) (s : State) : State := issue .stRestore (restoreTxn p s) s

/-- The last row of R161: complete with the gathered flags and data. -/
def finishSelfTest (s : State) : State :=
  complete (codeOf s.failLatch) s.failLatch s.dataLatch0 s.dataLatch1 s.dataLatch2 s

/-- SELF_TEST: one row of R161 for each phase and answer. -/
def selfTestWith (p : Params) (s : State) : Result :=
  match s.seq, s.busAns with
  | .idle, _ => if s.configured then .next (issue .stEnter (enterTxn p s) s) else .next (refuseUnconfigured s)
  | .stEnter, some (.ok _) => .next (issue .stCapture (dataTxn p s) s)
  | .stEnter, some .fail => .next (toRestore p (setFlag failMain s))
  | .stCapture, some (.ok b) => .next (toRestore p (captureToLatch p b s))
  | .stCapture, some .fail => .next (toRestore p (setFlag failCapture s))
  | .stRestore, some (.ok _) => .next (finishSelfTest s)
  | .stRestore, some .fail => .next (finishSelfTest (setFlag failRestore s))
  | .stEnter, none => .fault .noAnswer
  | .stCapture, none => .fault .noAnswer
  | .stRestore, none => .fault .noAnswer
  | .xfer, _ => .fault .noContinuation

/-- SELF_TEST on this hardware. -/
def execSelfTest (s : State) : Result := selfTestWith Config.params s

end Sys2Proof.Machine
end

