-- ==== Sys2Proof/Machine/Dispatch.lean ====
section
/-! DEFINITION. One arm per command: its dispatch in `IDLE` (R103), its continuation in any other phase (R104). -/

namespace Sys2Proof.Machine

def exec (i : Instr) (s : State) : Host.Outcome State Fault Refusal :=
  match i with
  | .configure range asel => Sys2Proof.Machine.execConfigure range asel s
  | .powerOn => Sys2Proof.Machine.execPowerOn s
  | .readAccel => Sys2Proof.Machine.execReadAccel s
  | .selfTest => Sys2Proof.Machine.execSelfTest s
  | .readOffset => Sys2Proof.Machine.execReadOffset s
  | .writeOffset ox oy oz => Sys2Proof.Machine.execWriteOffset ox oy oz s
  | .readDevid => Sys2Proof.Machine.execReadDevid s

end Sys2Proof.Machine
end

