-- ==== Sys2Proof/Machine/Engine.lean ====
section
/-! DEFINITION. The command engine's micro-steps (R101 to R104) and the reset event (R250), over any dispatch; and the dispatch
of an instance with other parameters (R5, R6). -/

namespace Sys2Proof.Machine

/-- The seven commands under a parameter set; `exec` is this at the hardware's values. -/
def commandWith (p : Params) (i : Instr) (s : State) : Result :=
  match i with
  | .configure range asel => configureWith p range asel s
  | .powerOn => powerOnWith p s
  | .readAccel => readAccelWith p s
  | .selfTest => selfTestWith p s
  | .readOffset => readOffsetWith p s
  | .writeOffset ox oy oz => writeOffsetWith p ox oy oz s
  | .readDevid => readDevidWith p s

/-- The accept step (R101) with its dispatch (R103) for the word `w`. -/
def acceptStep (run : Instr → State → Result) (w : Word) (s : State) : Result :=
  match decode w with
  | .illegal _ => .next (refuseIllegal (latchCommand w s))
  | .cmd i => run i (latchCommand w s)

/-- The host presents the word it holds: accepted exactly when `SEQ = IDLE` (R101). Otherwise the host still holds it. -/
def presentStep (run : Instr → State → Result) (s : State) : Result :=
  match s.seq, s.hostWords with
  | .idle, w :: ws => acceptStep run w { s with hostWords := ws }
  | _, _ => .next s

/-- The environment answers: the answer step (R104), enabled exactly when `OUT_TXN != None`. A late answer is discarded
(R250, log 9). -/
def answerStep (run : Instr → State → Result) (d : Draw) (s : State) : Result :=
  match s.outTxn with
  | none => .next s
  | some t =>
    match s.seq, decode s.cmdLatch with
    | .idle, _ => .fault .noContinuation
    | _, .illegal _ => .fault .noContinuation
    | _, .cmd i => run i (takeAnswer t d s)

/-- One micro-step, on the outside agents' next event (log 2); with no event the AFE has no step (R104, log 4). -/
def microStep (run : Instr → State → Result) (p : Params) (s : State) : Result :=
  match s.events with
  | [] => .fault (if s.seq = .idle then .noCommand else .noAnswer)
  | .reset :: es => .next (resetEvent p { s with events := es })
  | .present :: es => presentStep run { s with events := es }
  | .answer d :: es => answerStep run d { s with events := es }

/-- A step of an instance with the parameters `p` (R5). -/
def stepWith (p : Params) (s : State) : Result := microStep (commandWith p) p s

/-- R5: a model refuses an ill-formed parameter set; a well-formed one starts in its reset state. -/
def instantiate (p : Params) : Option State := if p.wf then some (State.resetOf p) else none

end Sys2Proof.Machine
end

