-- ==== Sys2Proof/Machine/Step.lean ====
section
/-! DEFINITION. One step of the machine, and a word placed on its command port. -/

namespace Sys2Proof.Machine

/-- One micro-step of this hardware (R101 to R104, R250). -/
def step (s : State) : Host.Outcome State Fault Refusal := microStep exec Config.params s

/-- `s` with the word `w` first among the words the host holds and the host presenting it next (R101; log 14);
bits from `nbits` up are zero. -/
def State.withFetchWord (s : State) (nbits w : Nat) : State :=
  { s with hostWords := BitVec.ofNat 32 (w % 2 ^ nbits) :: s.hostWords, events := .present :: s.events }

end Sys2Proof.Machine
end

