-- ==== Sys2Proof/Machine/Assembler.lean ====
section
/-! DEFINITION. The assembler syntax of AFE-CMD 1 (R91, R92): a line's characters to a parsed line, and a parsed line to its
word. -/

namespace Sys2Proof.Machine

/-- A numeric operand as written: a signed decimal or a 0x.. hexadecimal (R91). -/
inductive AsmNumber where
  | dec (v : Int)
  | hex (v : Nat)
deriving DecidableEq, Repr

/-- A parsed line with a command or the one directive (R91, R92). -/
inductive AsmLine where
  | configure (range : BitVec 2) (asel : AsmNumber)
  | powerOn
  | readAccel
  | selfTest
  | readOffset
  | writeOffset (ox oy oz : AsmNumber)
  | readDevid
  | word (v : AsmNumber)
deriving DecidableEq, Repr

/-- What a line of text is. -/
inductive AsmParse where
  | blank
  | line (l : AsmLine)
  | refused
deriving DecidableEq, Repr

/-- `<asel> in {0, 1}` (R91), the number taken by its value: `-0` and `01` are ways to write 0 and 1 (DESIGN CHOICE, log 16). -/
def asmAsel : AsmNumber → Option (BitVec 1)
  | .dec v => if v = 0 then some 0#1 else if v = 1 then some 1#1 else none
  | .hex _ => none

/-- "each a signed decimal -128..127 or 0x00..0xFF" (R91). -/
def asmByte : AsmNumber → Option Byte
  | .dec v => if -128 ≤ v ∧ v ≤ 127 then some (BitVec.ofInt 8 v) else none
  | .hex v => if v ≤ 0xFF then some (BitVec.ofNat 8 v) else none

/-- The command of a parsed line, or the verbatim word of `.word`; an operand out of range is refused (R91). -/
def assemble : AsmLine → Option Word
  | .configure range asel => (asmAsel asel).map fun a => encode (.configure range a)
  | .powerOn => some (encode .powerOn)
  | .readAccel => some (encode .readAccel)
  | .selfTest => some (encode .selfTest)
  | .readOffset => some (encode .readOffset)
  | .writeOffset ox oy oz =>
    match asmByte ox, asmByte oy, asmByte oz with
    | some x, some y, some z => some (encode (.writeOffset x y z))
    | _, _, _ => none
  | .readDevid => some (encode .readDevid)
  | .word (.hex v) => if v < 2 ^ 32 then some (BitVec.ofNat 32 v) else none
  | .word (.dec _) => none

/-- Blanks between the parts of a line (log 16). -/
def asmBlank (c : Char) : Bool := c == ' ' || c == '\t'

/-- A line less its comment and the blanks around it. -/
def asmTrim (cs : List Char) : List Char :=
  ((cs.dropWhile asmBlank).reverse.dropWhile asmBlank).reverse

/-- The operands of a line: separated by commas (R91). -/
def asmOperands : List Char → List (List Char)
  | [] => [[]]
  | c :: cs =>
    if c == ',' then [] :: asmOperands cs
    else match asmOperands cs with
      | [] => [[c]]
      | o :: os => (c :: o) :: os

/-- One digit in a base. -/
def asmDigit (base : Nat) (c : Char) : Option Nat :=
  let n := c.toNat
  let d := if 48 ≤ n ∧ n ≤ 57 then n - 48 else if 65 ≤ n ∧ n ≤ 70 then n - 55 else if 97 ≤ n ∧ n ≤ 102 then n - 87 else 99
  if d < base then some d else none

/-- A non-empty run of digits, from the value of those already read. -/
def asmDigits (base acc : Nat) : List Char → Option Nat
  | [] => some acc
  | c :: cs =>
    match asmDigit base c with
    | some d => asmDigits base (acc * base + d) cs
    | none => none

/-- A number as R91 writes one. R91 gives no lexical grammar: a minus sign may stand before any decimal, `-0` among them (DESIGN
CHOICE, log 16). -/
def asmNumber : List Char → Option AsmNumber
  | [] => none
  | ['-'] => none
  | ['0', 'x'] => none
  | '0' :: 'x' :: cs => (asmDigits 16 0 cs).map .hex
  | '-' :: cs => (asmDigits 10 0 cs).map fun n => .dec (-(n : Int))
  | cs => (asmDigits 10 0 cs).map fun n => .dec (n : Int)

/-- `<range> in {2g, 4g, 8g, 16g}` (R91), with the codes of R82. -/
def asmRange (cs : List Char) : Option (BitVec 2) :=
  if cs = "2g".toList then some 0#2
  else if cs = "4g".toList then some 1#2
  else if cs = "8g".toList then some 2#2
  else if cs = "16g".toList then some 3#2
  else none

/-- A line that takes no operand. -/
def asmBare (l : AsmLine) (ops : List (List Char)) : AsmParse :=
  if ops = [] then .line l else .refused

/-- The statement of a mnemonic and its operands (R91). -/
def asmStatement (mnemonic : List Char) (ops : List (List Char)) : AsmParse :=
  if mnemonic = "CONFIGURE".toList then
    match ops with
    | [r, a] => match asmRange r, asmNumber a with
      | some range, some asel => .line (.configure range asel)
      | _, _ => .refused
    | _ => .refused
  else if mnemonic = "POWER_ON".toList then asmBare .powerOn ops
  else if mnemonic = "READ_ACCEL".toList then asmBare .readAccel ops
  else if mnemonic = "SELF_TEST".toList then asmBare .selfTest ops
  else if mnemonic = "READ_OFFSET".toList then asmBare .readOffset ops
  else if mnemonic = "WRITE_OFFSET".toList then
    match ops with
    | [x, y, z] => match asmNumber x, asmNumber y, asmNumber z with
      | some ox, some oy, some oz => .line (.writeOffset ox oy oz)
      | _, _, _ => .refused
    | _ => .refused
  else if mnemonic = "READ_DEVID".toList then asmBare .readDevid ops
  else if mnemonic = ".word".toList then
    match ops with
    | [v] => match asmNumber v with
      | some n => .line (.word n)
      | none => .refused
    | _ => .refused
  else .refused

/-- One line of text: `;` opens a comment (R91). -/
def asmParse (cs : List Char) : AsmParse :=
  let body := asmTrim (cs.takeWhile (· != ';'))
  if body = [] then .blank
  else
    let rest := asmTrim (body.dropWhile fun c => !asmBlank c)
    asmStatement (body.takeWhile fun c => !asmBlank c)
      (if rest = [] then [] else (asmOperands rest).map asmTrim)

/-- The word of one line of text; none for a blank or refused line. -/
def assembleText (t : String) : Option Word :=
  match asmParse t.toList with
  | .line l => assemble l
  | .blank => none
  | .refused => none

end Sys2Proof.Machine
end

