-- ==== Sys2Proof/Machine/BigStep.lean ====
section
/-! DEFINITION. The big-step view of a command (R106): the command rules' straight-line pseudocode, written apart from the
micro-steps of Engine.lean, which the refinement statement compares with it. -/

namespace Sys2Proof.Machine

/-- What `Exec(s, w, answers)` gives (R106): the state after (only R20's configuration and filter fields can differ), the
response, and the transactions with their answers in issue order. -/
structure BigResult where
  state : State
  rsp : Response
  txns : List TxnEvent
deriving DecidableEq, Repr

/-- A transaction with its answer (R55). -/
def answered (t : Txn) (d : Draw) : TxnEvent := ⟨t, some (answerTo t d)⟩

/-- A one-transaction command (R120, R122, R145, R200 to R202): FAIL_MAIN and no effect on `Fail`. -/
def bigOne (t : Txn) (d : Draw) (s : State) (onOk : Six → State × Sample) : BigResult :=
  match d with
  | .fail => ⟨s, responseOf .transportFail failMain 0#32 0#32 0#32, [answered t d]⟩
  | .ok b =>
    let r := onOk b
    ⟨r.1, responseOf .ok 0#3 r.2.x r.2.y r.2.z, [answered t d]⟩

/-- The end of SELF_TEST's pseudocode (R162): the restoration write and the completion, after `done`. -/
def bigRestore (p : Params) (flags : BitVec 3) (d : Sample) (done : List TxnEvent) (a3 : Draw) (s : State) : BigResult :=
  let fl := match a3 with
    | .ok _ => flags
    | .fail => flags ||| failRestore
  ⟨s, responseOf (codeOf fl) fl d.x d.y d.z, done ++ [answered (restoreTxn p s) a3]⟩

/-- SELF_TEST's pseudocode (R162). -/
def bigSelfTest (p : Params) (s : State) : List Draw → Option BigResult
  | .ok b1 :: .ok b :: a3 :: _ =>
    some (bigRestore p 0#3 (captured p b s) [answered (enterTxn p s) (.ok b1), answered (dataTxn p s) (.ok b)] a3
      (capture p b s))
  | .ok b1 :: .fail :: a3 :: _ =>
    some (bigRestore p failCapture ⟨0#32, 0#32, 0#32⟩
      [answered (enterTxn p s) (.ok b1), answered (dataTxn p s) .fail] a3 s)
  | .fail :: a3 :: _ =>
    some (bigRestore p failMain ⟨0#32, 0#32, 0#32⟩ [answered (enterTxn p s) .fail] a3 s)
  | _ => none

/-- A configured or configuring command's pseudocode; `none` when an answer it waits for is missing (R104). -/
def bigCommand (p : Params) (i : Instr) (answers : List Draw) (s : State) : Option BigResult :=
  match i, answers with
  | .selfTest, ds => bigSelfTest p s ds
  | _, [] => none
  | .configure range asel, a :: _ =>
    some (bigOne (configureTxn p range asel) a s fun _ => (configureState range asel s, ⟨0#32, 0#32, 0#32⟩))
  | .powerOn, a :: _ => some (bigOne (powerOnTxn p s) a s fun _ => (s, ⟨0#32, 0#32, 0#32⟩))
  | .readAccel, a :: _ => some (bigOne (dataTxn p s) a s fun b => (capture p b s, captured p b s))
  | .readOffset, a :: _ =>
    some (bigOne (readOffsetTxn p s) a s fun b => (s, ⟨sext32 b.b0, sext32 b.b1, sext32 b.b2⟩))
  | .writeOffset ox oy oz, a :: _ =>
    some (bigOne (writeOffsetTxn p ox oy oz s) a s fun _ => (s, ⟨0#32, 0#32, 0#32⟩))
  | .readDevid, a :: _ => some (bigOne (devidTxn p s) a s fun b => (s, ⟨zext32 b.b0, 0#32, 0#32⟩))

/-- `Exec(s, w, answers)` (R106), with the priority of R223. It is meant for a state in which R101 is enabled: `SEQ = IDLE`, with
the latches 0 and no transaction outstanding. R106 gives no result on another state; there this answers as if the engine were
idle and leaves `SEQ`, the latches and `OUT_TXN` as they are, which is DESIGN CHOICE (log 19). -/
def bigStep (p : Params) (w : Word) (answers : List Draw) (s : State) : Option BigResult :=
  match decode w with
  | .illegal _ => some ⟨s, responseOf .illegalCommand 0#3 0#32 0#32 0#32, []⟩
  | .cmd i =>
    if i.isConfigure || s.configured then bigCommand p i answers s
    else some ⟨s, responseOf .notConfigured 0#3 0#32 0#32 0#32, []⟩

end Sys2Proof.Machine
end

