-- ==== Sys2Proof/Machine/Session.lean ====
section
/-! DEFINITION. A host's session in the big-step view (R106), and the host obligations R253 to R256: what a host that needs
meaningful samples must do. Each is stated "as a host obligation, not as a step the AFE refuses" (R254), so no step of
Engine.lean reads one. R257's exclusive bus is `exclusiveBus` of Sensor.lean (R65); its one command at a time is a session's list. -/

namespace Sys2Proof.Machine

/-- One command of a session: its word, its response and its transactions with their answers. -/
structure Exchange where
  word : Word
  response : Response
  txns : List TxnEvent
deriving DecidableEq, Repr

/-- The state after a session, and its exchanges, oldest first. -/
structure Session where
  state : State
  exchanges : List Exchange
deriving DecidableEq, Repr

/-- A host presents each word after the previous one's response, with the environment's answers to it (R106); `none` when an
answer is missing (R104). Like `bigStep`, it is meant for an idle state (DESIGN CHOICE, log 19). -/
def session (p : Params) (s : State) : List (Word × List Draw) → Option Session
  | [] => some ⟨s, []⟩
  | (w, answers) :: rest =>
    match bigStep p w answers s with
    | none => none
    | some r => (session p r.state rest).map fun q => ⟨q.state, ⟨w, r.rsp, r.txns⟩ :: q.exchanges⟩

/-- The exchange's word is a command of this kind. -/
def Exchange.asks (kind : Instr → Bool) (e : Exchange) : Bool :=
  match decode e.word with
  | .cmd i => kind i
  | .illegal _ => false

/-- The exchange is a command of this kind that completed with OK. -/
def Exchange.completed (kind : Instr → Bool) (e : Exchange) : Bool := e.asks kind && decide (e.response.status = 0x00#8)

/-- POWER_ON, step 2 of R253. -/
def Instr.isPowerOn : Instr → Bool
  | .powerOn => true
  | .configure _ _ => false
  | .readAccel => false
  | .selfTest => false
  | .readOffset => false
  | .writeOffset _ _ _ => false
  | .readDevid => false

/-- The acquisitions of R254. -/
def Instr.isAcquisition : Instr → Bool
  | .readAccel => true
  | .selfTest => true
  | .configure _ _ => false
  | .powerOn => false
  | .readOffset => false
  | .writeOffset _ _ _ => false
  | .readDevid => false

/-- Step 3 of R253, but for READ_DEVID, which the host may also issue between steps 1 and 3. -/
def Instr.followsPowerOn : Instr → Bool
  | .readAccel => true
  | .selfTest => true
  | .readOffset => true
  | .writeOffset _ _ _ => true
  | .configure _ _ => false
  | .powerOn => false
  | .readDevid => false

/-- Every exchange that is `late` has one that is `first` before it, or `seen` says that there was one already. -/
def precededBy (first late : Exchange → Bool) (seen : Bool) : List Exchange → Bool
  | [] => true
  | e :: es => (seen || !late e) && precededBy first late (seen || first e) es

/-- R253, step 1: a CONFIGURE completed with OK comes before every other command. -/
def configureFirst (xs : List Exchange) : Bool :=
  precededBy (Exchange.completed Instr.isConfigure) (Exchange.asks fun i => !i.isConfigure) false xs

/-- R254: "A host that needs meaningful samples must complete POWER_ON with OK first", before READ_ACCEL and SELF_TEST. -/
def powerOnFirst (xs : List Exchange) : Bool :=
  precededBy (Exchange.completed Instr.isPowerOn) (Exchange.asks Instr.isAcquisition) false xs

/-- The boot sequence of R253; by its step 1 the POWER_ON of step 2 comes after a successful CONFIGURE. -/
def bootOrder (xs : List Exchange) : Bool :=
  configureFirst xs && precededBy (Exchange.completed Instr.isPowerOn) (Exchange.asks Instr.followsPowerOn) false xs

/-- R255: `n` samples of the constant scaled input `x` after a CONFIGURE are enough for the output to be settled. A host must
not take an earlier output as settled. -/
def settledAfter (p : Params) (x : Word) (n : Nat) : Bool :=
  decide (filterRun p x 0#32 (n + 1) = filterRun p x 0#32 n)

/-- SELF_TEST moved the filter: its capture answered `Ok`, whatever its restoration did (R162). -/
def Exchange.selfTestCaptured (e : Exchange) : Bool :=
  match decode e.word with
  | .cmd .selfTest => decide (e.response.status = 0x00#8) || decide (e.response.status = 0x41#8)
  | _ => false

/-- R256: whether the filter carries a self-test reading after these exchanges, from whether it did before. A host that needs
unbiased data must issue CONFIGURE again, or discard samples, while this is true. The spec gives no number of samples after
which the bias counts as decayed: here only a CONFIGURE with OK clears it, however many samples follow (DESIGN CHOICE,
log 20). -/
def selfTestBias (biased : Bool) : List Exchange → Bool
  | [] => biased
  | e :: es =>
    selfTestBias (if e.completed Instr.isConfigure then false else biased || e.selfTestCaptured) es

end Sys2Proof.Machine
end

