-- ==== Sys2Proof/Machine/Sensor.lean ====
section
/-! DEFINITION. The reference sensor of R57, an environment premise and no part of the AFE: a 256-byte register store, what a
transaction and its answer say about it, and the launch premise `exclusive_bus` (R65). -/

namespace Sys2Proof.Machine

/-- The store `SREG` (R57): cells (offset, byte) in the canonical form `Memory.wf`. -/
abbrev Memory := List Host.Cell

/-- What an unlisted offset reads as. A premise quantifies over every store, so this fixes no register's contents (log 10). -/
def Memory.blank : Byte := 0x00#8

/-- Read one register. -/
def Memory.read : Memory → Nat → Byte
  | [], _ => Memory.blank
  | c :: m, k => if c.1 = k then c.2 else Memory.read m k

/-- A cell in front, unless it is what an unlisted offset reads as. -/
def Memory.put (k : Nat) (v : Byte) (m : Memory) : Memory := if v = Memory.blank then m else (k, v) :: m

/-- Write one register, keeping the canonical form. -/
def Memory.write : Memory → Nat → Byte → Memory
  | [], k, v => Memory.put k v []
  | c :: m, k, v =>
    if k < c.1 then Memory.put k v (c :: m)
    else if k = c.1 then Memory.put k v m
    else c :: Memory.write m k v

/-- A write transaction's bytes go to ascending registers (R53, R57). -/
def Memory.writeBytes (m : Memory) (k : Nat) : List Byte → Memory
  | [] => m
  | v :: vs => Memory.writeBytes (Memory.write m k v) (k + 1) vs

/-- Offsets strictly rising from `lo`, below 256 (R50), and no cell equal to what an unlisted offset reads as. -/
def Memory.wfFrom (lo : Nat) : Memory → Bool
  | [] => true
  | c :: m => decide (lo ≤ c.1) && decide (c.1 < 256) && decide (c.2 ≠ Memory.blank) && Memory.wfFrom (c.1 + 1) m

/-- The canonical form. -/
def Memory.wf (m : Memory) : Bool := Memory.wfFrom 0 m

/-- The offsets whose bytes stay draws under the reference sensor: 0x00 and 0x32 to 0x37 (R57). -/
def drawnOffset (k : Nat) : Bool := decide (k = 0x00) || (decide (0x32 ≤ k) && decide (k ≤ 0x37))

/-- The slave address a transaction goes to. -/
def Txn.sa : Txn → SlaveAddr
  | .write a _ => a
  | .read a _ _ => a

/-- The register offsets a transaction names: the first and how many (R53, R54). -/
def Txn.span : Txn → Nat × Nat
  | .write _ [] => (0, 0)
  | .write _ (reg :: data) => (reg.toNat, data.length)
  | .read _ reg n => (reg.toNat, n)

/-- A transaction names the register offset `k`. -/
def Txn.touches (t : Txn) (k : Nat) : Bool := decide (t.span.1 ≤ k) && decide (k < t.span.1 + t.span.2)

/-- R53, R54: a write carries the offset and at least one data byte, a read at least one byte. -/
def Txn.wf : Txn → Bool
  | .write _ bytes => decide (2 ≤ bytes.length)
  | .read _ _ n => decide (1 ≤ n)

/-- Outside the offsets a transaction names, the store is unchanged. -/
def sameOutside (t : Txn) (m m' : Memory) : Prop := ∀ k, t.touches k = false → m'.read k = m.read k

/-- One transaction at the reference sensor (R57): what the store `m'` after it can be, from the store `m` before. -/
def sensorStep (m : Memory) (e : TxnEvent) (m' : Memory) : Prop :=
  match e.txn, e.answer with
  | .write _ (reg :: data), some (.ok _) => m' = m.writeBytes reg.toNat data
  | .read _ reg n, some (.ok bytes) =>
      m' = m ∧ ∀ k, k < n → drawnOffset (reg.toNat + k) = false → bytes[k]? = some (m.read (reg.toNat + k))
  | t, _ => m'.wf = true ∧ sameOutside t m m'

/-- The reference sensor's one store, at the slave addresses it answers to. R57 speaks of writes "at the AFE's slave address", which
is either of the two (R22); a transaction to an address outside `home` is not to this sensor and leaves its store (log 15). -/
def refSensor (home : List SlaveAddr) (m : Memory) (e : TxnEvent) (m' : Memory) : Prop :=
  if e.txn.sa ∈ home then sensorStep m e m' else m' = m

/-- One bus transaction with the sensor's store before and after it. -/
structure BusEntry where
  before : Memory
  event : TxnEvent
  after : Memory
deriving DecidableEq, Repr

/-- The launch premise `exclusive_bus` (R65): no other bus master touches the sensor between two transactions of the log, so
each finds the store as the one before left it. The model has no step for a foreign master (log 11). -/
def exclusiveBus : List BusEntry → Prop
  | [] => True
  | [_] => True
  | a :: b :: rest => b.before = a.after ∧ exclusiveBus (b :: rest)

/-- A bus log, oldest first, at the reference sensor with an exclusive bus. -/
def sensorLog (home : List SlaveAddr) (log : List BusEntry) : Prop :=
  exclusiveBus log ∧ ∀ e, e ∈ log → refSensor home e.before e.event e.after

end Sys2Proof.Machine
end

