-- ==== Sys2Proof/Safety.lean ====
section
/-! DEFINITION. The terms claims use: the invariant of the engine, the legal responses (R87), the transactions of R60, the first
transaction of a command, reachable states and runs. -/

namespace Sys2Proof.Machine

/-- The bound of a filter register on this hardware (R182): at most 2^26 in magnitude. -/
def filterBound (w : Word) : Prop := -(2 ^ 26) ≤ w.toInt ∧ w.toInt ≤ 2 ^ 26

/-- The first transaction of each command (R60, rows of order 1). -/
def firstTxn (p : Params) (i : Instr) (s : State) : Txn :=
  match i with
  | .configure range asel => configureTxn p range asel
  | .powerOn => powerOnTxn p s
  | .readAccel => dataTxn p s
  | .selfTest => enterTxn p s
  | .readOffset => readOffsetTxn p s
  | .writeOffset ox oy oz => writeOffsetTxn p ox oy oz s
  | .readDevid => devidTxn p s

/-- `t` is outstanding, and is the last event of the history, pending (R30, R55). -/
def outstanding (t : Txn) (s : State) : Prop := s.outTxn = some t ∧ s.history.head? = some ⟨t, none⟩

/-- The data latches hold zero (R29). -/
def dataClear (s : State) : Prop := s.dataLatch0 = 0#32 ∧ s.dataLatch1 = 0#32 ∧ s.dataLatch2 = 0#32

/-- The latches of a command that has recorded no failure and no data (R29, R101). -/
def latchesFresh (s : State) : Prop := s.failLatch = 0#3 ∧ dataClear s

/-- SELF_TEST is in progress with `t` outstanding (R161). -/
def selfTestRuns (t : Txn) (s : State) : Prop :=
  decode s.cmdLatch = .cmd .selfTest ∧ s.configured = true ∧ outstanding t s

/-- What holds in each phase (R27 to R30, R161). -/
def phaseInv (p : Params) (s : State) : Prop :=
  match s.seq with
  | .idle => s.outTxn = none ∧ s.cmdLatch = 0#32 ∧ latchesFresh s
  | .xfer => latchesFresh s ∧ ∃ i, decode s.cmdLatch = .cmd i ∧ i ≠ .selfTest ∧
      (i.isConfigure = true ∨ s.configured = true) ∧ outstanding (firstTxn p i s) s
  | .stEnter => selfTestRuns (enterTxn p s) s ∧ latchesFresh s
  | .stCapture => selfTestRuns (dataTxn p s) s ∧ latchesFresh s
  | .stRestore => selfTestRuns (restoreTxn p s) s ∧
      ((s.failLatch = 0#3 ∧ s.dataLatch0 = s.filtX ∧ s.dataLatch1 = s.filtY ∧ s.dataLatch2 = s.filtZ) ∨
       ((s.failLatch = failMain ∨ s.failLatch = failCapture) ∧ dataClear s))

/-- The invariant of the engine between micro-steps. -/
structure Inv (s : State) : Prop where
  /-- No answer stands on the port between micro-steps (R104). -/
  port : s.busAns = none
  /-- The sequencer, the latches and the outstanding transaction belong together (R27 to R30). -/
  phase : phaseInv Config.params s
  /-- R182. -/
  boundX : filterBound s.filtX
  /-- R182. -/
  boundY : filterBound s.filtY
  /-- R182. -/
  boundZ : filterBound s.filtZ
  /-- While unconfigured, configuration and filter hold their reset values (R21 to R23, R26, R34). -/
  unconfigured : s.configured = false →
    s.cfgRange = Config.params.resetRange ∧ s.cfgAsel = Config.params.resetAsel ∧
    s.filtX = 0#32 ∧ s.filtY = 0#32 ∧ s.filtZ = 0#32

/-- The invariants of a response (R87, R88): bit 7 is 0, CODE is at most 3, CODE is 1 exactly when a flag is set, and no data
leaves with a code other than OK. -/
def Response.legal (r : Response) : Prop :=
  r.status.getLsbD 7 = false ∧ r.code.toNat ≤ 3 ∧ (r.code = 1#4 ↔ r.flags ≠ 0#3) ∧
  (r.code ≠ 0#4 → r.d0 = 0#32 ∧ r.d1 = 0#32 ∧ r.d2 = 0#32)

/-- The transactions of R60, at one of the two slave addresses: the data-format writes (range bits and the self-test bit,
never bit 0x04), the measurement write, the offset write, and the three reads. -/
def Txn.listed (p : Params) (t : Txn) : Prop :=
  (t.sa = p.addrLow ∨ t.sa = p.addrHigh) ∧
  ((∃ d, t = .write t.sa [0x31#8, d] ∧ d &&& 0x7C#8 = 0#8) ∨
   t = .write t.sa [0x2D#8, 0x08#8] ∨
   (∃ x y z, t = .write t.sa [0x1E#8, x, y, z]) ∨
   t = .read t.sa 0x32#8 6 ∨ t = .read t.sa 0x1E#8 3 ∨ t = .read t.sa 0x00#8 1)

/-- `n` micro-steps of this hardware. -/
def runSteps (n : Nat) (s : State) : Host.Outcome State Fault Refusal := Host.Core.run Sys2Proof.core n s

/-- States the machine reaches from reset, whatever the host, the environment and the platform do. -/
inductive Reachable : State → Prop where
  | boot (words : List Word) (events : List Event) :
      Reachable { State.reset with hostWords := words, events := events }
  | step (s t : State) : Reachable s → Sys2Proof.Machine.step s = .next t → Reachable t

/-- The AFE hangs: a transaction is outstanding and no event comes (R104, I8). -/
def hangs (s : State) : Prop := s.seq ≠ .idle ∧ s.events = []

/-- The configuration and filter fields of R20 agree. -/
def sameConfig (s t : State) : Prop :=
  t.cfgRange = s.cfgRange ∧ t.cfgAsel = s.cfgAsel ∧ t.configured = s.configured

/-- The filter registers agree. -/
def sameFilter (s t : State) : Prop := t.filtX = s.filtX ∧ t.filtY = s.filtY ∧ t.filtZ = s.filtZ

/-- Every field of R20 agrees. -/
def sameAfe (s t : State) : Prop :=
  sameConfig s t ∧ sameFilter s t ∧ t.seq = s.seq ∧ t.cmdLatch = s.cmdLatch ∧ t.failLatch = s.failLatch ∧
  t.dataLatch0 = s.dataLatch0 ∧ t.dataLatch1 = s.dataLatch1 ∧ t.dataLatch2 = s.dataLatch2 ∧ t.outTxn = s.outTxn

/-- `s` waiting in phase `ph` for the answer to `x`, which is the last, pending event of its history: what an issue changes
(R103, R55), and every other field as in `s`. -/
def waitingFor (ph : Phase) (x : Txn) (s : State) : State :=
  { s with seq := ph, outTxn := some x, busAns := none, history := ⟨x, none⟩ :: s.history }

/-- `s` idle again with the response `r` emitted and the latches 0: what a completion changes (R105), and every other field as
in `s`. -/
def idleAfter (r : Response) (s : State) : State :=
  { s with
    seq := .idle, outTxn := none, busAns := none, cmdLatch := 0#32, failLatch := 0#3,
    dataLatch0 := 0#32, dataLatch1 := 0#32, dataLatch2 := 0#32, responses := r :: s.responses }

/-- An idle engine in a state that meets the invariant; the host presents `w` next, the environment then answers with `ds`;
`ws` and `es` are what comes later. -/
structure Offered (w : Word) (ds : List Draw) (ws : List Word) (es : List Event) (s : State) : Prop where
  inv : Inv s
  idle : s.seq = .idle
  words : s.hostWords = w :: ws
  events : s.events = .present :: (ds.map .answer ++ es)

/-- The transactions of the history, newest first. -/
def txnsOf (s : State) : List Txn := s.history.map (·.txn)

/-- The three filter registers lie between `lo` and `hi`. -/
def filterWithin (lo hi : Int) (f : Sample) : Prop :=
  (lo ≤ f.x.toInt ∧ f.x.toInt ≤ hi) ∧ (lo ≤ f.y.toInt ∧ f.y.toInt ≤ hi) ∧ (lo ≤ f.z.toInt ∧ f.z.toInt ≤ hi)

/-- The filter registers as a sample. -/
def State.filt (s : State) : Sample := ⟨s.filtX, s.filtY, s.filtZ⟩

/-- The exact recurrence of the source (R184): `y_n = alpha * x + (1 - alpha) * y_(n-1)` over the rationals. -/
def exactRun (p : Params) (x y0 : ℚ) : Nat → ℚ
  | 0 => y0
  | n + 1 =>
    (p.alphaNum : ℚ) / p.alphaDen * x + (1 - (p.alphaNum : ℚ) / p.alphaDen) * exactRun p x y0 n

end Sys2Proof.Machine
end

