-- ==== Sys2Proof/Certificates/Slice0/Obligations.lean ====
section
/-! DEFINITION. The statements for the provers, in the order of the spec's sections. -/

open Sys2Proof Sys2Proof.Machine

-- ## Encoding (30_encoding.md)

/-- R81 to R85: decoding an encoded command gives it back, every operand at every value. -/
def Obligations.DecodeOfEncodeIsIdentity : Prop :=
  ∀ i : Instr, i.wf = true ∧ decode (encode i) = .cmd i

/-- R81 to R85: each command has one word: a word that decodes to a command is that command's encoding. -/
def Obligations.EachCommandHasOneWord : Prop :=
  ∀ (w : Word) (i : Instr), decode w = .cmd i → encode i = w

/-- R85: on every word, `decode(w) = c` exactly when `w` matches the row of `c` in R84, with the operands the word's fields. -/
def Obligations.DecodesExactlyWhenRowMatches : Prop :=
  ∀ (w : Word) (i : Instr), decode w = .cmd i ↔
    match i with
    | .configure range asel =>
        w &&& 0xFFFFFFF8#32 = 0x10000000#32 ∧ range = w.extractLsb' 0 2 ∧ asel = w.extractLsb' 2 1
    | .powerOn => w &&& 0xFFFFFFFF#32 = 0x20000000#32
    | .readAccel => w &&& 0xFFFFFFFF#32 = 0x30000000#32
    | .selfTest => w &&& 0xFFFFFFFF#32 = 0x40000000#32
    | .readOffset => w &&& 0xFFFFFFFF#32 = 0x50000000#32
    | .writeOffset ox oy oz => w &&& 0xFF000000#32 = 0x60000000#32 ∧
        ox = w.extractLsb' 0 8 ∧ oy = w.extractLsb' 8 8 ∧ oz = w.extractLsb' 16 8
    | .readDevid => w &&& 0xFFFFFFFF#32 = 0x70000000#32

/-- R84: at most one row matches any word. -/
def Obligations.AtMostOneRowMatches : Prop :=
  ∀ (w : Word) (r r' : Row), r ∈ opcodeMap → r' ∈ opcodeMap → r.selects w = true → r'.selects w = true → r = r'

/-- Words of the vectors V1, one of each family, decode as the table says. -/
def Obligations.SampleWordsDecode : Prop :=
  decode 0x10000007#32 = .cmd (.configure 3#2 1#1) ∧ decode 0x20000000#32 = .cmd .powerOn ∧
  decode 0x30000000#32 = .cmd .readAccel ∧ decode 0x40000000#32 = .cmd .selfTest ∧
  decode 0x50000000#32 = .cmd .readOffset ∧ decode 0x608002FF#32 = .cmd (.writeOffset 0xFF#8 0x02#8 0x80#8) ∧
  decode 0x70000000#32 = .cmd .readDevid ∧ decode 0x00000000#32 = .illegal .reservedOpcode ∧
  decode 0x1F000003#32 = .illegal .reservedField ∧ decode 0x70000100#32 = .illegal .operandNotZero ∧
  decode 0x10000008#32 = .illegal .mbzNotZero

/-- R91, R83: the assembler takes an offset operand exactly when a byte stands for it (a signed decimal in -128..127, or
0x00..0xFF), and a WRITE_OFFSET line of any three operands, decimal, hexadecimal or mixed, assembles exactly to the word of R83
with those bytes. -/
def Obligations.AssemblerOffsetOperands : Prop :=
  let denotes := fun (n : AsmNumber) (b : Byte) => match n with
    | .dec v => b.toInt = v
    | .hex v => b.toNat = v
  (∀ (n : AsmNumber) (b : Byte), asmByte n = some b ↔ denotes n b) ∧
  (∀ v : Int, (∃ b, asmByte (.dec v) = some b) ↔ -128 ≤ v ∧ v ≤ 127) ∧
  (∀ v : Nat, (∃ b, asmByte (.hex v) = some b) ↔ v ≤ 0xFF) ∧
  (∀ (x y z : AsmNumber) (w : Word), assemble (.writeOffset x y z) = some w ↔
    ∃ ox oy oz : Byte, denotes x ox ∧ denotes y oy ∧ denotes z oz ∧ w = 0x6#4 ++ (0#4 ++ (oz ++ (oy ++ ox))) ∧
      decode w = .cmd (.writeOffset ox oy oz))

-- ## The command engine (40_engine.md)

/-- R101: a word presented to an idle engine that decodes to a command is latched, the other latches are cleared, and the
step is `exec` of that command there. -/
def Obligations.AcceptStepRunsDecodedCommand : Prop :=
  ∀ (s : State) (w : Word) (ws : List Word) (es : List Event) (i : Instr),
    s.seq = .idle → s.hostWords = w :: ws → s.events = .present :: es → decode w = .cmd i →
    step s = exec i { s with
      cmdLatch := w, failLatch := 0#3, dataLatch0 := 0#32, dataLatch1 := 0#32, dataLatch2 := 0#32,
      busAns := none, hostWords := ws, events := es }

/-- R104: an answer to the outstanding transaction takes it from OUT_TXN, and the step is `exec` of the latched command there;
the answer is recorded in the history (R55). -/
def Obligations.AnswerStepRunsLatchedCommand : Prop :=
  ∀ (s : State) (x : Txn) (d : Draw) (es : List Event) (i : Instr) (h : List TxnEvent),
    s.seq ≠ .idle → s.outTxn = some x → s.history = ⟨x, none⟩ :: h → s.events = .answer d :: es →
    decode s.cmdLatch = .cmd i →
    step s = exec i { s with
      outTxn := none, busAns := some d, history := ⟨x, some (answerTo x d)⟩ :: h, events := es }

/-- R101: a word presented while `SEQ != IDLE` is not accepted, dropped or queued: the host still holds it, and the AFE is as
before. -/
def Obligations.BusyPortAcceptsNoWord : Prop :=
  ∀ (s : State) (es : List Event), s.seq ≠ .idle → s.events = .present :: es → step s = .next { s with events := es }

/-- R89: the illegal words are exactly those of cases (a) to (d); one gets the response ILLEGAL_COMMAND at once, with no
transaction and no state change, whether or not the engine is configured (R223). -/
def Obligations.IllegalWordsAreRefused : Prop :=
  (∀ w : Word, (∃ why, decode w = .illegal why) ↔
    ((w.extractLsb' 28 4 = 0x0#4 ∨ 0x8#4 ≤ w.extractLsb' 28 4) ∨
     w.extractLsb' 24 4 ≠ 0#4 ∨
     (w.extractLsb' 28 4 ∈ [0x2#4, 0x3#4, 0x4#4, 0x5#4, 0x7#4] ∧ w.extractLsb' 0 24 ≠ 0#24) ∨
     (w.extractLsb' 28 4 = 0x1#4 ∧ w.extractLsb' 3 21 ≠ 0#21))) ∧
  (∀ (s : State) (w : Word) (ws : List Word) (es : List Event) (why : Illegal),
    Offered w [] ws es s → decode w = .illegal why →
    step s = .next { s with hostWords := ws, events := es, responses := ⟨0x02#8, 0#32, 0#32, 0#32⟩ :: s.responses })

/-- R103: while `CONFIGURED = 0`, every command but CONFIGURE gets the response NOT_CONFIGURED at once, with no transaction and
no state change. -/
def Obligations.UnconfiguredCommandIsRefused : Prop :=
  ∀ (s : State) (w : Word) (ws : List Word) (es : List Event) (i : Instr),
    Offered w [] ws es s → s.configured = false → decode w = .cmd i → i.isConfigure = false →
    step s = .next { s with hostWords := ws, events := es, responses := ⟨0x03#8, 0#32, 0#32, 0#32⟩ :: s.responses }

/-- R102: a micro-step issues at most one transaction and emits at most one response. -/
def Obligations.MicroStepIssuesAndEmitsAtMostOne : Prop :=
  ∀ s t : State, Inv s → step s = .next t →
    (txnsOf t = txnsOf s ∨ ∃ x, txnsOf t = x :: txnsOf s) ∧
    (t.responses = s.responses ∨ ∃ r, t.responses = r :: s.responses)

/-- R87, R105: an accept step, and an answer step, either issues one transaction and stays busy, or completes with exactly one
response and is idle. -/
def Obligations.MicroStepIssuesOrCompletes : Prop :=
  ∀ s t : State, Inv s → step s = .next t →
    ((∃ es, s.events = .present :: es) ∧ s.seq = .idle ∧ s.hostWords ≠ [] ∨
     (∃ d es, s.events = .answer d :: es) ∧ s.outTxn ≠ none) →
    (t.seq ≠ .idle ∧ (∃ x, t.outTxn = some x ∧ txnsOf t = x :: txnsOf s) ∧ t.responses = s.responses) ∨
    (t.seq = .idle ∧ t.outTxn = none ∧ txnsOf t = txnsOf s ∧ ∃ r, t.responses = r :: s.responses)

/-- R62: a transaction is issued only when none is outstanding or in the step that consumes its answer, and a recorded answer
never changes. That the reset event too keeps the recorded answers is the model's choice (log 8), not R62's. -/
def Obligations.TransactionsAreTotallyOrdered : Prop :=
  ∀ s t : State, Inv s → step s = .next t →
    (∀ x, txnsOf t = x :: txnsOf s → s.outTxn = none ∨ ∃ d es, s.events = .answer d :: es) ∧
    (∀ e, e ∈ s.history → e.answer ≠ none → e ∈ t.history)

/-- R87, R88: every response that is emitted is legal. -/
def Obligations.EmittedResponsesAreLegal : Prop :=
  ∀ s t : State, (∀ r, r ∈ s.responses → r.legal) → step s = .next t → ∀ r, r ∈ t.responses → r.legal

/-- R87: bits 5 and 6 of STATUS are 0 for every command but SELF_TEST. -/
def Obligations.CaptureAndRestoreFlagsOnlyFromSelfTest : Prop :=
  ∀ (s t : State) (r : Response), Inv s → step s = .next t → t.responses = r :: s.responses →
    decode s.cmdLatch ≠ .cmd .selfTest → r.status.getLsbD 5 = false ∧ r.status.getLsbD 6 = false

/-- R60: no transaction other than the listed ones is ever issued; no byte written ever has bit 0x04 in the data-format
register. The invariant is the premise that makes the outstanding transaction one of the history. -/
def Obligations.OnlyListedTransactionsAreIssued : Prop :=
  ∀ s t : State, Inv s → (∀ e, e ∈ s.history → e.txn.listed Config.params) → step s = .next t →
    ∀ e, e ∈ t.history → e.txn.listed Config.params

/-- R107: given three answers, every word completes within four micro-steps, with one response and at most three
transactions; at most one unless it is SELF_TEST. -/
def Obligations.EveryCommandCompletesInFourMicroSteps : Prop :=
  ∀ (s : State) (w : Word) (d1 d2 d3 : Draw) (ws : List Word) (es : List Event),
    Offered w [d1, d2, d3] ws es s →
    ∃ n t, n ≤ 4 ∧ runSteps n s = .next t ∧ t.seq = .idle ∧ (∃ r, t.responses = r :: s.responses) ∧
      t.history.length ≤ s.history.length + 3 ∧
      (decode w ≠ .cmd .selfTest → t.history.length ≤ s.history.length + 1)

/-- R106: the big-step function and the micro-steps agree. With enough answers the micro-steps reach the big step's state,
response and transactions, leaving the answers it does not need; without, they end busy. -/
def Obligations.BigStepAgreesWithMicroSteps : Prop :=
  ∀ (s : State) (w : Word) (ds : List Draw) (ws : List Word) (es : List Event), Offered w ds ws es s →
    match bigStep Config.params w ds s with
    | some r =>
      runSteps (r.txns.length + 1) s = .next { r.state with
        hostWords := ws, events := (ds.drop r.txns.length).map .answer ++ es,
        responses := r.rsp :: s.responses, history := r.txns.reverse ++ s.history }
    | none => ∃ t, runSteps (ds.length + 1) s = .next t ∧ t.seq ≠ .idle ∧ t.events = es ∧ t.responses = s.responses

/-- R101, R104: without an event the AFE has no step, written as the faults of log 4 (the model's form of a stuck state); and it
stops for no other reason. The second clause is the model's: it counts as steps a presented word that is not accepted (log 2) and
a late answer that is discarded (log 9), which are no micro-steps of the spec. -/
def Obligations.StopsExactlyWhenNoEventComes : Prop :=
  ∀ s : State, Inv s →
    (s.events = [] → step s = .fault (if s.seq = .idle then .noCommand else .noAnswer)) ∧
    (s.events ≠ [] → ∃ t, step s = .next t)

/-- R104: only reset leaves a phase whose transaction is not answered. -/
def Obligations.OnlyAnswerOrResetLeavesAPhase : Prop :=
  ∀ s t : State, Inv s → s.seq ≠ .idle → step s = .next t → (∀ d es, s.events ≠ .answer d :: es) →
    (∀ es, s.events ≠ .reset :: es) → t.seq = s.seq ∧ t.outTxn = s.outTxn ∧ t.responses = s.responses

/-- The invariant of the engine holds at reset, whatever the outside agents hold. -/
def Obligations.InvariantHoldsAtReset : Prop :=
  ∀ (words : List Word) (events : List Event), Inv { State.reset with hostWords := words, events := events }

/-- Every micro-step keeps the invariant of the engine. -/
def Obligations.EveryStepKeepsInvariant : Prop :=
  ∀ s t : State, Inv s → step s = .next t → Inv t

/-- R30: in every reachable state OUT_TXN is not None exactly when SEQ is not IDLE, and it is then the last event of the
history, pending (R55). -/
def Obligations.OutTxnExactlyWhenBusy : Prop :=
  ∀ s : State, Reachable s →
    (s.outTxn ≠ none ↔ s.seq ≠ .idle) ∧ (∀ x, s.outTxn = some x → s.history.head? = some ⟨x, none⟩)

-- ## Configuration state (10_state.md)

/-- R21 to R23: a step leaves the configuration as it is, or is the reset event, or is the `Ok` answer to a CONFIGURE, which
sets it to that command's operands. -/
def Obligations.OnlyConfigureOkAndResetWriteConfiguration : Prop :=
  ∀ s t : State, step s = .next t →
    sameConfig s t ∨ (∃ es, s.events = .reset :: es) ∨
    ∃ b es range asel, s.events = .answer (.ok b) :: es ∧ decode s.cmdLatch = .cmd (.configure range asel) ∧
      t.cfgRange = range ∧ t.cfgAsel = asel ∧ t.configured = true

/-- R26, R181: a step leaves the filter as it is, or zeroes it (the reset event, the `Ok` answer to a CONFIGURE), or is the `Ok`
answer to the data read of READ_ACCEL or of SELF_TEST's capture. -/
def Obligations.OnlyThreeEventsWriteTheFilter : Prop :=
  ∀ s t : State, step s = .next t →
    sameFilter s t ∨
    (t.filt = ⟨0#32, 0#32, 0#32⟩ ∧ ((∃ es, s.events = .reset :: es) ∨
      ∃ b es range asel, s.events = .answer (.ok b) :: es ∧ decode s.cmdLatch = .cmd (.configure range asel))) ∨
    ∃ b es, s.events = .answer (.ok b) :: es ∧ t.filt = captured Config.params b s ∧
      ((decode s.cmdLatch = .cmd .readAccel ∧ s.seq = .xfer) ∨
       (decode s.cmdLatch = .cmd .selfTest ∧ s.seq = .stCapture))

/-- R34: while `CONFIGURED = 0`, the values of `CFG_RANGE`, `CFG_ASEL` and `FILT_*` cannot be observed: with any other values the
same step is taken, to the same state outside those five fields, and to the same state once it is configured. So it composes over
the steps of a run. -/
def Obligations.UnconfiguredValuesAreUnobservable : Prop :=
  ∀ (s t : State) (range : BitVec 2) (asel : BitVec 1) (x y z : Word), Inv s → s.configured = false → step s = .next t →
    ∃ (range' : BitVec 2) (asel' : BitVec 1) (x' y' z' : Word),
      step { s with cfgRange := range, cfgAsel := asel, filtX := x, filtY := y, filtZ := z } = .next
        { t with cfgRange := range', cfgAsel := asel', filtX := x', filtY := y', filtZ := z' } ∧
      (t.configured = true → { t with cfgRange := range', cfgAsel := asel', filtX := x', filtY := y', filtZ := z' } = t)

/-- R24: the sensitivity and the scale factor of each range. -/
def Obligations.SensitivityAndScaleTable : Prop :=
  (sens 0#2 = 256#9 ∧ sens 1#2 = 128#9 ∧ sens 2#2 = 64#9 ∧ sens 3#2 = 32#9) ∧
  (scaleFactor 0#2 = 256#12 ∧ scaleFactor 1#2 = 512#12 ∧ scaleFactor 2#2 = 1024#12 ∧ scaleFactor 3#2 = 2048#12) ∧
  ∀ rc, (scaleFactor rc).toNat = 2 ^ 16 / (sens rc).toNat

-- ## The commands (41 to 45)

/-- R120: CONFIGURE writes the range byte to the data-format register at the newly selected address; on `Ok` it commits range,
address select and `CONFIGURED` and zeroes the filter; on `Fail` it changes nothing. Every other field is as before. -/
def Obligations.ConfigureEffect : Prop :=
  (∀ (w : Word) (r : BitVec 2) (a : BitVec 1), decode w = .cmd (.configure r a) ↔
    w &&& 0xFFFFFFF8#32 = 0x10000000#32 ∧ r = w.extractLsb' 0 2 ∧ a = w.extractLsb' 2 1) ∧
  ∀ (range : BitVec 2) (asel : BitVec 1) (s : State),
    (s.seq = .idle → exec (.configure range asel) s = .next (waitingFor .xfer
      (.write (if asel = 0#1 then Config.addrLow else Config.addrHigh) [0x31#8, range.zeroExtend 8]) s)) ∧
    (∀ b, s.seq = .xfer → s.busAns = some (.ok b) → exec (.configure range asel) s = .next (idleAfter ⟨0x00#8, 0#32, 0#32, 0#32⟩
      { s with cfgRange := range, cfgAsel := asel, configured := true, filtX := 0#32, filtY := 0#32, filtZ := 0#32 })) ∧
    (s.seq = .xfer → s.busAns = some .fail → s.failLatch = 0#3 →
      exec (.configure range asel) s = .next (idleAfter ⟨0x11#8, 0#32, 0#32, 0#32⟩ s))

/-- R120: two successful CONFIGUREs with the same operands leave every field of R20 as one does. -/
def Obligations.ConfigureIsIdempotent : Prop :=
  ∀ (s t t' : State) (range : BitVec 2) (asel : BitVec 1) (b b' : Six) (ws : List Word) (es : List Event),
    Offered (encode (.configure range asel)) [.ok b] (encode (.configure range asel) :: ws)
      (.present :: .answer (.ok b') :: es) s →
    runSteps 2 s = .next t → runSteps 4 s = .next t' →
    sameAfe t t' ∧ t'.configured = true ∧ t'.cfgRange = range ∧ t'.cfgAsel = asel ∧ t'.filt = ⟨0#32, 0#32, 0#32⟩ ∧
      t'.seq = .idle

/-- R122: POWER_ON writes exactly 0x08 to the power-control register and writes no AFE state but its response. -/
def Obligations.PowerOnEffect : Prop :=
  (∀ w : Word, decode w = .cmd .powerOn ↔ w = 0x20000000#32) ∧
  ∀ s : State,
    (s.seq = .idle → s.configured = false → exec .powerOn s = .next (idleAfter ⟨0x03#8, 0#32, 0#32, 0#32⟩ s)) ∧
    (s.seq = .idle → s.configured = true → exec .powerOn s = .next (waitingFor .xfer
      (.write (if s.cfgAsel = 0#1 then Config.addrLow else Config.addrHigh) [0x2D#8, 0x08#8]) s)) ∧
    (∀ b, s.seq = .xfer → s.busAns = some (.ok b) → exec .powerOn s = .next (idleAfter ⟨0x00#8, 0#32, 0#32, 0#32⟩ s)) ∧
    (s.seq = .xfer → s.busAns = some .fail → s.failLatch = 0#3 →
      exec .powerOn s = .next (idleAfter ⟨0x11#8, 0#32, 0#32, 0#32⟩ s))

/-- R145, R146: READ_ACCEL reads six bytes from 0x32; on `Ok` the filter registers take the captured values, which are also the
response data; on `Fail` nothing changes. -/
def Obligations.ReadAccelEffect : Prop :=
  (∀ w : Word, decode w = .cmd .readAccel ↔ w = 0x30000000#32) ∧
  ∀ s : State,
    (s.seq = .idle → s.configured = false → exec .readAccel s = .next (idleAfter ⟨0x03#8, 0#32, 0#32, 0#32⟩ s)) ∧
    (s.seq = .idle → s.configured = true → exec .readAccel s = .next (waitingFor .xfer
      (.read (if s.cfgAsel = 0#1 then Config.addrLow else Config.addrHigh) 0x32#8 6) s)) ∧
    (∀ b f, s.seq = .xfer → s.busAns = some (.ok b) → f = captured Config.params b s →
      exec .readAccel s = .next (idleAfter ⟨0x00#8, f.x, f.y, f.z⟩ { s with filtX := f.x, filtY := f.y, filtZ := f.z })) ∧
    (s.seq = .xfer → s.busAns = some .fail → s.failLatch = 0#3 →
      exec .readAccel s = .next (idleAfter ⟨0x11#8, 0#32, 0#32, 0#32⟩ s))

/-- R140 to R144, R180: the value each axis takes in a capture, from its own two bytes, the configured range and its own old
value; the floor of the exact quotient, never wrapped. -/
def Obligations.CapturedValueOfEachAxis : Prop :=
  ∀ (b : Six) (s : State),
    (captured Config.params b s).x.toInt =
      ((b.b1 ++ b.b0 : BitVec 16).toInt * 2 ^ (8 + s.cfgRange.toNat) + 4 * s.filtX.toInt).fdiv 5 ∧
    (captured Config.params b s).y.toInt =
      ((b.b3 ++ b.b2 : BitVec 16).toInt * 2 ^ (8 + s.cfgRange.toNat) + 4 * s.filtY.toInt).fdiv 5 ∧
    (captured Config.params b s).z.toInt =
      ((b.b5 ++ b.b4 : BitVec 16).toInt * 2 ^ (8 + s.cfgRange.toNat) + 4 * s.filtZ.toInt).fdiv 5

/-- R143, R181: no lane reads another, for any parameters. -/
def Obligations.LanesAreIndependent : Prop :=
  ∀ (p : Params) (b b' : Six) (s s' : State), s.cfgRange = s'.cfgRange →
    (b.b0 = b'.b0 → b.b1 = b'.b1 → s.filtX = s'.filtX → (captured p b s).x = (captured p b' s').x) ∧
    (b.b2 = b'.b2 → b.b3 = b'.b3 → s.filtY = s'.filtY → (captured p b s).y = (captured p b' s').y) ∧
    (b.b4 = b'.b4 → b.b5 = b'.b5 → s.filtZ = s'.filtZ → (captured p b s).z = (captured p b' s').z)

/-- R142: the scaling engine is exact: the G-word times the sensitivity is the channel value times 2^16, and it stays within the
bounds of the rule, for either sign interpretation. -/
def Obligations.ScalingIsExact : Prop :=
  ∀ (p : Params) (v : BitVec 16) (rc : BitVec 2),
    (scale (channelValue p v) rc).toInt = channelValue p v * 2 ^ (8 + rc.toNat) ∧
    (scale (channelValue p v) rc).toInt * (sens rc).toNat = channelValue p v * 2 ^ 16 ∧
    (p.rawSigned = true → -(2 ^ 26) ≤ (scale (channelValue p v) rc).toInt ∧ (scale (channelValue p v) rc).toInt ≤ 67106816) ∧
    (p.rawSigned = false → 0 ≤ (scale (channelValue p v) rc).toInt ∧ (scale (channelValue p v) rc).toInt ≤ 134215680)

/-- R147: the bytes 0xFF, 0xFF at each range: scaled and after one filter step from zero, signed (this hardware) and unsigned. -/
def Obligations.NegativeExampleAtEveryRange : Prop :=
  ∀ rc : BitVec 2,
    (convertAxis Config.params rc 0xFF#8 0xFF#8).toInt = -((scaleFactor rc).toNat : Int) ∧
    [(0#2, -52), (1#2, -103), (2#2, -205), (3#2, -410)].lookup rc =
      some (filter Config.params 0#32 (convertAxis Config.params rc 0xFF#8 0xFF#8)).toInt ∧
    (convertAxis (Config.legacyUnsigned Config.params) rc 0xFF#8 0xFF#8).toInt = 65535 * (scaleFactor rc).toNat

/-- R161: every row of the self-test sequencer, with every other field as before. -/
def Obligations.SelfTestSequencerRows : Prop :=
  ∀ s : State,
    let a := if s.cfgAsel = 0#1 then Config.addrLow else Config.addrHigh
    let restore := Txn.write a [0x31#8, s.cfgRange.zeroExtend 8]
    let code := fun fl : BitVec 3 => if fl = 0#3 then 0#4 else 1#4
    (s.seq = .idle → s.configured = false → exec .selfTest s = .next (idleAfter ⟨0x03#8, 0#32, 0#32, 0#32⟩ s)) ∧
    (s.seq = .idle → s.configured = true →
      exec .selfTest s = .next (waitingFor .stEnter (.write a [0x31#8, 0x80#8 ||| s.cfgRange.zeroExtend 8]) s)) ∧
    (∀ b, s.seq = .stEnter → s.busAns = some (.ok b) →
      exec .selfTest s = .next (waitingFor .stCapture (.read a 0x32#8 6) s)) ∧
    (s.seq = .stEnter → s.busAns = some .fail →
      exec .selfTest s = .next (waitingFor .stRestore restore { s with failLatch := s.failLatch ||| 1#3 })) ∧
    (∀ b f, s.seq = .stCapture → s.busAns = some (.ok b) → f = captured Config.params b s →
      exec .selfTest s = .next (waitingFor .stRestore restore
        { s with filtX := f.x, filtY := f.y, filtZ := f.z, dataLatch0 := f.x, dataLatch1 := f.y, dataLatch2 := f.z })) ∧
    (s.seq = .stCapture → s.busAns = some .fail →
      exec .selfTest s = .next (waitingFor .stRestore restore { s with failLatch := s.failLatch ||| 2#3 })) ∧
    (∀ b, s.seq = .stRestore → s.busAns = some (.ok b) →
      exec .selfTest s = .next (idleAfter ⟨0#1 ++ (s.failLatch ++ code s.failLatch),
        if s.failLatch = 0#3 then s.dataLatch0 else 0#32, if s.failLatch = 0#3 then s.dataLatch1 else 0#32,
        if s.failLatch = 0#3 then s.dataLatch2 else 0#32⟩ s)) ∧
    (s.seq = .stRestore → s.busAns = some .fail →
      exec .selfTest s = .next (idleAfter ⟨0#1 ++ ((s.failLatch ||| 4#3) ++ 1#4), 0#32, 0#32, 0#32⟩ s))

/-- R162: all six combinations of answers, run to completion: the STATUS byte, the data, the filter and the transactions; no
configuration field changes. -/
def Obligations.SelfTestSixOutcomes : Prop :=
  ∀ (s : State) (b1 b : Six) (a3 : Draw) (ws : List Word) (es : List Event), s.configured = true →
    let f := captured Config.params b s
    let ev := fun (x : Txn) (d : Draw) => TxnEvent.mk x (some (answerTo x d))
    let enter := enterTxn Config.params s
    let data := dataTxn Config.params s
    let restore := restoreTxn Config.params s
    (Offered 0x40000000#32 [.ok b1, .ok b, a3] ws es s → runSteps 4 s = .next { s with
      filtX := f.x, filtY := f.y, filtZ := f.z, hostWords := ws, events := es,
      history := [ev restore a3, ev data (.ok b), ev enter (.ok b1)] ++ s.history,
      responses := (if a3 = .fail then ⟨0x41#8, 0#32, 0#32, 0#32⟩ else ⟨0x00#8, f.x, f.y, f.z⟩) :: s.responses }) ∧
    (Offered 0x40000000#32 [.ok b1, .fail, a3] ws es s → runSteps 4 s = .next { s with
      hostWords := ws, events := es,
      history := [ev restore a3, ev data .fail, ev enter (.ok b1)] ++ s.history,
      responses := ⟨if a3 = .fail then 0x61#8 else 0x21#8, 0#32, 0#32, 0#32⟩ :: s.responses }) ∧
    (Offered 0x40000000#32 [.fail, a3] ws es s → runSteps 3 s = .next { s with
      hostWords := ws, events := es,
      history := [ev restore a3, ev enter .fail] ++ s.history,
      responses := ⟨if a3 = .fail then 0x51#8 else 0x11#8, 0#32, 0#32, 0#32⟩ :: s.responses })

/-- R163: whenever an accepted SELF_TEST completes, its transactions hold exactly one restoration write, after the enter write,
and it is the last. Of the AFE this speaks for idle states; the big step of another is the model's choice (log 19). -/
def Obligations.SelfTestRestoresOnEveryPath : Prop :=
  ∀ (s : State) (ds : List Draw) (r : BigResult), s.configured = true →
    bigStep Config.params 0x40000000#32 ds s = some r →
    let restore := Txn.write (sa Config.params s) [0x31#8, s.cfgRange.zeroExtend 8]
    (r.txns.map (·.txn)).head? = some (.write (sa Config.params s) [0x31#8, 0x80#8 ||| s.cfgRange.zeroExtend 8]) ∧
    (r.txns.map (·.txn)).getLast? = some restore ∧ (r.txns.map (·.txn)).count restore = 1

/-- R27, R163: while a restoration write is still owed (ST_ENTER, ST_CAPTURE), the sequence ends only through ST_RESTORE or by
reset. -/
def Obligations.OwedRestorationIsNotSkipped : Prop :=
  ∀ s t : State, Inv s → step s = .next t → (s.seq = .stEnter ∨ s.seq = .stCapture) →
    (∃ es, s.events = .reset :: es) ∨ t.seq = s.seq ∨ (s.seq = .stEnter ∧ t.seq = .stCapture) ∨
    (t.seq = .stRestore ∧ t.outTxn = some (.write (sa Config.params t) [0x31#8, t.cfgRange.zeroExtend 8]))

/-- R200: READ_OFFSET reads three bytes from 0x1E and answers them sign-extended; it writes no other state. -/
def Obligations.ReadOffsetEffect : Prop :=
  (∀ w : Word, decode w = .cmd .readOffset ↔ w = 0x50000000#32) ∧
  ∀ s : State,
    (s.seq = .idle → s.configured = false → exec .readOffset s = .next (idleAfter ⟨0x03#8, 0#32, 0#32, 0#32⟩ s)) ∧
    (s.seq = .idle → s.configured = true → exec .readOffset s = .next (waitingFor .xfer
      (.read (if s.cfgAsel = 0#1 then Config.addrLow else Config.addrHigh) 0x1E#8 3) s)) ∧
    (∀ b, s.seq = .xfer → s.busAns = some (.ok b) → exec .readOffset s = .next (idleAfter
      ⟨0x00#8, b.b0.signExtend 32, b.b1.signExtend 32, b.b2.signExtend 32⟩ s)) ∧
    (s.seq = .xfer → s.busAns = some .fail → s.failLatch = 0#3 →
      exec .readOffset s = .next (idleAfter ⟨0x11#8, 0#32, 0#32, 0#32⟩ s))

/-- R201: WRITE_OFFSET sends the three codes unchanged, X, Y, Z from 0x1E, in one transaction; it writes no other state. -/
def Obligations.WriteOffsetEffect : Prop :=
  (∀ (w : Word) (x y z : Byte), decode w = .cmd (.writeOffset x y z) ↔
    w &&& 0xFF000000#32 = 0x60000000#32 ∧ x = w.extractLsb' 0 8 ∧ y = w.extractLsb' 8 8 ∧ z = w.extractLsb' 16 8) ∧
  ∀ (ox oy oz : Byte) (s : State),
    (s.seq = .idle → s.configured = false → exec (.writeOffset ox oy oz) s = .next (idleAfter ⟨0x03#8, 0#32, 0#32, 0#32⟩ s)) ∧
    (s.seq = .idle → s.configured = true → exec (.writeOffset ox oy oz) s = .next (waitingFor .xfer
      (.write (if s.cfgAsel = 0#1 then Config.addrLow else Config.addrHigh) [0x1E#8, ox, oy, oz]) s)) ∧
    (∀ b, s.seq = .xfer → s.busAns = some (.ok b) →
      exec (.writeOffset ox oy oz) s = .next (idleAfter ⟨0x00#8, 0#32, 0#32, 0#32⟩ s)) ∧
    (s.seq = .xfer → s.busAns = some .fail → s.failLatch = 0#3 →
      exec (.writeOffset ox oy oz) s = .next (idleAfter ⟨0x11#8, 0#32, 0#32, 0#32⟩ s))

/-- R202, R204: READ_DEVID reads one byte from 0x00 and answers it zero-extended, whatever it is; it writes no other state. -/
def Obligations.ReadDevidEffect : Prop :=
  (∀ w : Word, decode w = .cmd .readDevid ↔ w = 0x70000000#32) ∧
  ∀ s : State,
    (s.seq = .idle → s.configured = false → exec .readDevid s = .next (idleAfter ⟨0x03#8, 0#32, 0#32, 0#32⟩ s)) ∧
    (s.seq = .idle → s.configured = true → exec .readDevid s = .next (waitingFor .xfer
      (.read (if s.cfgAsel = 0#1 then Config.addrLow else Config.addrHigh) 0x00#8 1) s)) ∧
    (∀ b, s.seq = .xfer → s.busAns = some (.ok b) →
      exec .readDevid s = .next (idleAfter ⟨0x00#8, b.b0.zeroExtend 32, 0#32, 0#32⟩ s)) ∧
    (s.seq = .xfer → s.busAns = some .fail → s.failLatch = 0#3 →
      exec .readDevid s = .next (idleAfter ⟨0x11#8, 0#32, 0#32, 0#32⟩ s))

-- ## The filter (44_filter.md), for every well-formed parameter set where the rule says so

/-- R180, R182: the filter's value is the floor of the exact quotient (it never wraps), and lies between the old value and the
input. -/
def Obligations.FilterIsExactAndBounded : Prop :=
  ∀ (p : Params) (y x : Word), p.wf = true →
    (filter p y x).toInt = ((p.alphaNum : Int) * x.toInt + ((p.alphaDen : Int) - p.alphaNum) * y.toInt).fdiv p.alphaDen ∧
    min x.toInt y.toInt ≤ (filter p y x).toInt ∧ (filter p y x).toInt ≤ max x.toInt y.toInt

/-- R182: a step keeps the filter registers between the least and the greatest of 0 and the scaled inputs. -/
def Obligations.FilterStaysWithinItsInputs : Prop :=
  ∀ (s t : State) (lo hi : Int), lo ≤ 0 → 0 ≤ hi → filterWithin lo hi s.filt →
    (∀ b es, s.events = .answer (.ok b) :: es → filterWithin lo hi (convert Config.params b s.cfgRange)) →
    step s = .next t → filterWithin lo hi t.filt

/-- R183: the fixed points. -/
def Obligations.FilterFixedPoints : Prop :=
  ∀ (p : Params) (y x : Word), p.wf = true →
    (filter p y x = y ↔ 0 ≤ (p.alphaNum : Int) * (x.toInt - y.toInt) ∧ (p.alphaNum : Int) * (x.toInt - y.toInt) < p.alphaDen)

/-- R183: from below the state rises and stops within 4 of the input; from above it falls strictly until it equals it. -/
def Obligations.FilterApproachesConstantInput : Prop :=
  ∀ y x : Word,
    (y.toInt < x.toInt - 4 → y.toInt < (filter Config.params y x).toInt ∧ (filter Config.params y x).toInt ≤ x.toInt) ∧
    (x.toInt - 4 ≤ y.toInt → y.toInt ≤ x.toInt → filter Config.params y x = y) ∧
    (x.toInt < y.toInt → x.toInt ≤ (filter Config.params y x).toInt ∧ (filter Config.params y x).toInt < y.toInt) ∧
    (y.toInt < x.toInt → ∃ n, filterRun Config.params x y (n + 1) = filterRun Config.params x y n ∧
      x.toInt - 4 ≤ (filterRun Config.params x y n).toInt ∧ (filterRun Config.params x y n).toInt ≤ x.toInt) ∧
    (x.toInt < y.toInt → ∃ n, filterRun Config.params x y n = x)

/-- R184: the filter stays below the exact recurrence by less than ALPHA_DEN / ALPHA_NUM. -/
def Obligations.FilterTracksExactRecurrence : Prop :=
  ∀ (p : Params) (x y0 : Word) (n : Nat), p.wf = true →
    exactRun p x.toInt y0.toInt n - (p.alphaDen : ℚ) / p.alphaNum < ((filterRun p x y0 n).toInt : ℚ) ∧
    ((filterRun p x y0 n).toInt : ℚ) ≤ exactRun p x.toInt y0.toInt n

/-- R184: from zero under a constant input at least zero, the output never decreases, never overshoots, and is above
`X * (1 - 0.8^n) - 5`. -/
def Obligations.FilterIsMonotoneWithoutOvershoot : Prop :=
  ∀ (x : Word) (n : Nat), 0 ≤ x.toInt →
    (filterRun Config.params x 0#32 n).toInt ≤ (filterRun Config.params x 0#32 (n + 1)).toInt ∧
    (filterRun Config.params x 0#32 n).toInt ≤ x.toInt ∧
    (x.toInt : ℚ) * (1 - (4 / 5) ^ n) - 5 < ((filterRun Config.params x 0#32 n).toInt : ℚ)

/-- R185: with `ALPHA_NUM = ALPHA_DEN` the filter is the identity on its input, so every capture, in any state, gives the scaled
sample: READ_ACCEL answers it, and SELF_TEST's capture keeps it for its answer. -/
def Obligations.PassThroughVariantReturnsScaledSample : Prop :=
  ∀ p : Params, p.wf = true → p.alphaNum = p.alphaDen →
    (∀ y x : Word, filter p y x = x) ∧
    (∀ (b : Six) (s : State), captured p b s = convert p b s.cfgRange) ∧
    (∀ (s : State) (b : Six) (g : Sample), s.busAns = some (.ok b) → g = convert p b s.cfgRange →
      (s.seq = .xfer → commandWith p .readAccel s = .next (idleAfter ⟨0x00#8, g.x, g.y, g.z⟩
        { s with filtX := g.x, filtY := g.y, filtZ := g.z })) ∧
      (s.seq = .stCapture → commandWith p .selfTest s = .next (waitingFor .stRestore (restoreTxn p s)
        { s with filtX := g.x, filtY := g.y, filtZ := g.z, dataLatch0 := g.x, dataLatch1 := g.y, dataLatch2 := g.z })))

-- ## The reference sensor (20_memory.md R57)

/-- R121: under the reference sensor, a CONFIGURE answered `Ok` leaves the range's bit pattern in register 0x31, and the
sensitivity is the range's. -/
def Obligations.ConfigureProgramsDataFormat : Prop :=
  ∀ (s : State) (range : BitVec 2) (asel : BitVec 1) (b : Six) (ws : List Word) (es : List Event),
    Offered (encode (.configure range asel)) [.ok b] ws es s →
    ∃ t e, runSteps 2 s = .next t ∧ t.history = e :: s.history ∧
      e.txn = .write (slaveAddr Config.params asel) [0x31#8, range.zeroExtend 8] ∧ (sens t.cfgRange).toNat = 256 / 2 ^ range.toNat ∧
      ∀ (home : List SlaveAddr) (m m' : Memory), e.txn.sa ∈ home → m.wf = true → refSensor home m e m' →
        m'.wf = true ∧ m'.read 0x31 = range.zeroExtend 8 ∧
        ∀ k, k ≠ 0x31 → m'.read k = m.read k

/-- R166: under the reference sensor, when SELF_TEST's restoration write answers `Ok`, register 0x31 holds the configured range
bits with the self-test bit cleared; STATUS bit 6 says whether it did. Of the AFE this speaks for idle states; the big step of
another is the model's choice (log 19). -/
def Obligations.SelfTestLeavesDataFormatRestored : Prop :=
  ∀ (s : State) (ds : List Draw) (r : BigResult) (log : List BusEntry) (first last : BusEntry) (home : List SlaveAddr),
    s.configured = true → sa Config.params s ∈ home →
    bigStep Config.params 0x40000000#32 ds s = some r → log.map (·.event) = r.txns →
    sensorLog home log → log.head? = some first → first.before.wf = true → log.getLast? = some last →
    (r.rsp.status.getLsbD 6 = false ↔ last.event.answer = some (.ok [])) ∧
    (last.event.answer = some (.ok []) → last.after.read 0x31 = s.cfgRange.zeroExtend 8)

/-- R203: under the reference sensor, a WRITE_OFFSET answered `Ok`, then any transactions that touch none of 0x1E to 0x20, then
a READ_OFFSET answered `Ok`, answers exactly the written triple. The two commands may go to either slave address, with a CONFIGURE
to the other one between them, as long as both reach the sensor (R57's "at the AFE's slave address"; log 15). -/
def Obligations.OffsetRoundTrip : Prop :=
  ∀ (s s' : State) (ox oy oz : Byte) (b b' : Six) (ws ws' : List Word) (es es' : List Event),
    Offered (encode (.writeOffset ox oy oz)) [.ok b] ws es s → s.configured = true →
    Offered (encode .readOffset) [.ok b'] ws' es' s' → s'.configured = true →
    ∃ t e t' e', runSteps 2 s = .next t ∧ t.history = e :: s.history ∧
      runSteps 2 s' = .next t' ∧ t'.history = e' :: s'.history ∧
      ∀ (home : List SlaveAddr) (m0 m1 m2 m3 : Memory) (mid : List BusEntry), m0.wf = true →
        sa Config.params s ∈ home → sa Config.params s' ∈ home →
        sensorLog home (⟨m0, e, m1⟩ :: (mid ++ [⟨m2, e', m3⟩])) →
        (∀ x, x ∈ mid → ∀ k, 0x1E ≤ k → k ≤ 0x20 → x.event.txn.touches k = false) →
        t'.responses = ⟨0x00#8, ox.signExtend 32, oy.signExtend 32, oz.signExtend 32⟩ :: s'.responses

-- ## Reset (70_reset_and_hazards.md)

/-- R34, R252: the state right after reset; the values of the fields of R20. -/
def Obligations.ResetValues : Prop :=
  State.reset.cfgRange = 3#2 ∧ State.reset.cfgAsel = 0#1 ∧ State.reset.configured = false ∧
  State.reset.filtX = 0#32 ∧ State.reset.filtY = 0#32 ∧ State.reset.filtZ = 0#32 ∧
  State.reset.seq = .idle ∧ State.reset.cmdLatch = 0#32 ∧ State.reset.failLatch = 0#3 ∧
  State.reset.dataLatch0 = 0#32 ∧ State.reset.dataLatch1 = 0#32 ∧ State.reset.dataLatch2 = 0#32 ∧
  State.reset.outTxn = none

/-- R250: the reset event, in any phase, sets every field of R20 to its reset value, issues no transaction and emits no
response, so a command in progress is abandoned; an answer that comes while `OUT_TXN = None` is discarded. -/
def Obligations.ResetEventAtAnyTime : Prop :=
  (∀ (s : State) (es : List Event), s.events = .reset :: es → ∃ t, step s = .next t ∧
    t.cfgRange = 3#2 ∧ t.cfgAsel = 0#1 ∧ t.configured = false ∧ t.filtX = 0#32 ∧ t.filtY = 0#32 ∧ t.filtZ = 0#32 ∧
    t.seq = .idle ∧ t.cmdLatch = 0#32 ∧ t.failLatch = 0#3 ∧ t.dataLatch0 = 0#32 ∧ t.dataLatch1 = 0#32 ∧
    t.dataLatch2 = 0#32 ∧ t.outTxn = none ∧ txnsOf t = txnsOf s ∧ t.responses = s.responses) ∧
  (∀ (s : State) (d : Draw) (es : List Event), s.outTxn = none → s.events = .answer d :: es →
    step s = .next { s with events := es })

/-- What the reset event leaves beside R20's fields: the history unchanged, an abandoned transaction still `Pending` (log 8), and
the host's words (log 7). These are the model's choices, not a rule of the spec. -/
def Obligations.ResetKeepsHistoryAndHostWords : Prop :=
  ∀ (s t : State) (es : List Event), s.events = .reset :: es → step s = .next t →
    t = { State.reset with history := s.history, responses := s.responses, hostWords := s.hostWords, events := es }

-- ## Hazards (70_reset_and_hazards.md)

/-- R254, R123: acquisition before POWER_ON. The AFE refuses none: on any configured state the drawn bytes enter the filter. What R254
asks is the host's `powerOnFirst`: in a session that keeps it, a measurement write answered `Ok` comes before every acquisition.
The big step of a state that is not idle is the model's choice (log 19): R106 gives none there, so of the AFE this speaks for
idle states. -/
def Obligations.PowerOnIsTheHostsObligation : Prop :=
  (∀ (s : State) (b : Six) (ds : List Draw), s.configured = true → ∃ r,
    bigStep Config.params 0x30000000#32 (.ok b :: ds) s = some r ∧ r.rsp.status = 0x00#8 ∧
      r.state.filt = captured Config.params b s) ∧
  (∀ (s : State) (b1 b : Six) (a3 : Draw) (ds : List Draw), s.configured = true → ∃ r,
    bigStep Config.params 0x40000000#32 (.ok b1 :: .ok b :: a3 :: ds) s = some r ∧
      r.state.filt = captured Config.params b s) ∧
  (∀ (s : State) (cmds : List (Word × List Draw)) (q : Session) (pre post : List Exchange) (e : Exchange),
    session Config.params s cmds = some q → powerOnFirst q.exchanges = true → q.exchanges = pre ++ e :: post →
    e.asks Instr.isAcquisition = true →
    ∃ x a, x ∈ pre ∧ x.txns = [⟨.write a [0x2D#8, 0x08#8], some (.ok [])⟩])
end

