-- ==== Sys2Proof/Laws/Arith.lean ====
section
/-! SUPPORT. Floor division (R8) and the filter's recursion. -/

namespace Sys2Proof.Machine

/-- R8: `floor_div(a, d)` is the greatest integer `q` with `q * d <= a`. -/
theorem floorDiv_bounds (a : Int) {d : Int} (hd : 0 < d) : floorDiv a d * d ≤ a ∧ a < (floorDiv a d + 1) * d := by
  have h1 := Int.mul_fdiv_add_fmod a d
  have h2 := Int.fmod_nonneg_of_pos a hd
  have h3 := Int.fmod_lt_of_pos a hd
  unfold floorDiv
  constructor <;> nlinarith

/-- R8: an integer with those bounds is the quotient. -/
theorem floorDiv_unique {a d q : Int} (hd : 0 < d) (h1 : q * d ≤ a) (h2 : a < (q + 1) * d) : floorDiv a d = q := by
  obtain ⟨h3, h4⟩ := floorDiv_bounds a hd
  have h5 : floorDiv a d < q + 1 := by nlinarith
  have h6 : q < floorDiv a d + 1 := by nlinarith
  omega

@[simp] theorem filterRun_zero (p : Params) (x y : Word) : filterRun p x y 0 = y := rfl
@[simp] theorem filterRun_succ (p : Params) (x y : Word) (n : Nat) :
    filterRun p x y (n + 1) = filter p (filterRun p x y n) x := rfl

/-- A run of `m + n` steps is a run of `n` steps from the value after `m`. -/
theorem filterRun_add (p : Params) (x y : Word) (m : Nat) :
    ∀ n, filterRun p x y (m + n) = filterRun p x (filterRun p x y m) n
  | 0 => rfl
  | n + 1 => by rw [← Nat.add_assoc, filterRun_succ, filterRun_succ, filterRun_add p x y m n]

end Sys2Proof.Machine
end

