-- ==== Sys2Proof/Laws/Decode.lean ====
section
/-! SUPPORT. The fields of an assembled command word (R80). -/

namespace Sys2Proof

theorem commandWord_getLsbD (o : BitVec 4) (d : BitVec 24) (i : Nat) :
    (commandWord o d).getLsbD i = if i < 24 then d.getLsbD i else if i < 28 then false else o.getLsbD (i - 28) := by
  show (o ++ (0#4 ++ d) : BitVec (4 + (4 + 24))).getLsbD i = _
  rw [BitVec.getLsbD_append, BitVec.getLsbD_append]
  split_ifs <;> first | rfl | omega | simp

@[simp] theorem opcField_commandWord (o : BitVec 4) (d : BitVec 24) : opcField (commandWord o d) = o := by
  apply BitVec.eq_of_getLsbD_eq
  intro i hi
  rw [opcField, BitVec.getLsbD_extractLsb', commandWord_getLsbD, if_neg (by omega), if_neg (by omega)]
  simp [hi]

@[simp] theorem rsvField_commandWord (o : BitVec 4) (d : BitVec 24) : rsvField (commandWord o d) = 0#4 := by
  apply BitVec.eq_of_getLsbD_eq
  intro i hi
  rw [rsvField, BitVec.getLsbD_extractLsb', commandWord_getLsbD, if_neg (by omega), if_pos (by omega)]
  simp

@[simp] theorem opndField_commandWord (o : BitVec 4) (d : BitVec 24) : opndField (commandWord o d) = d := by
  apply BitVec.eq_of_getLsbD_eq
  intro i hi
  rw [opndField, BitVec.getLsbD_extractLsb', commandWord_getLsbD, if_pos (by omega)]
  simp [hi]

end Sys2Proof
end

