-- ==== Sys2Proof/Laws/State.lean ====
section
/-! SUPPORT. Every field after every shared state update: one lemma per field and update, true by definition. -/

namespace Sys2Proof.Machine

@[simp] theorem latchCommand_cfgRange (w : Word) (s : State) : (latchCommand w s).cfgRange = s.cfgRange := rfl
@[simp] theorem latchCommand_cfgAsel (w : Word) (s : State) : (latchCommand w s).cfgAsel = s.cfgAsel := rfl
@[simp] theorem latchCommand_configured (w : Word) (s : State) : (latchCommand w s).configured = s.configured := rfl
@[simp] theorem latchCommand_filtX (w : Word) (s : State) : (latchCommand w s).filtX = s.filtX := rfl
@[simp] theorem latchCommand_filtY (w : Word) (s : State) : (latchCommand w s).filtY = s.filtY := rfl
@[simp] theorem latchCommand_filtZ (w : Word) (s : State) : (latchCommand w s).filtZ = s.filtZ := rfl
@[simp] theorem latchCommand_seq (w : Word) (s : State) : (latchCommand w s).seq = s.seq := rfl
@[simp] theorem latchCommand_cmdLatch (w : Word) (s : State) : (latchCommand w s).cmdLatch = w := rfl
@[simp] theorem latchCommand_failLatch (w : Word) (s : State) : (latchCommand w s).failLatch = 0#3 := rfl
@[simp] theorem latchCommand_dataLatch0 (w : Word) (s : State) : (latchCommand w s).dataLatch0 = 0#32 := rfl
@[simp] theorem latchCommand_dataLatch1 (w : Word) (s : State) : (latchCommand w s).dataLatch1 = 0#32 := rfl
@[simp] theorem latchCommand_dataLatch2 (w : Word) (s : State) : (latchCommand w s).dataLatch2 = 0#32 := rfl
@[simp] theorem latchCommand_outTxn (w : Word) (s : State) : (latchCommand w s).outTxn = s.outTxn := rfl
@[simp] theorem latchCommand_busAns (w : Word) (s : State) : (latchCommand w s).busAns = none := rfl
@[simp] theorem latchCommand_history (w : Word) (s : State) : (latchCommand w s).history = s.history := rfl
@[simp] theorem latchCommand_responses (w : Word) (s : State) : (latchCommand w s).responses = s.responses := rfl
@[simp] theorem latchCommand_hostWords (w : Word) (s : State) : (latchCommand w s).hostWords = s.hostWords := rfl
@[simp] theorem latchCommand_events (w : Word) (s : State) : (latchCommand w s).events = s.events := rfl

@[simp] theorem issue_cfgRange (ph : Phase) (x : Txn) (s : State) : (issue ph x s).cfgRange = s.cfgRange := rfl
@[simp] theorem issue_cfgAsel (ph : Phase) (x : Txn) (s : State) : (issue ph x s).cfgAsel = s.cfgAsel := rfl
@[simp] theorem issue_configured (ph : Phase) (x : Txn) (s : State) : (issue ph x s).configured = s.configured := rfl
@[simp] theorem issue_filtX (ph : Phase) (x : Txn) (s : State) : (issue ph x s).filtX = s.filtX := rfl
@[simp] theorem issue_filtY (ph : Phase) (x : Txn) (s : State) : (issue ph x s).filtY = s.filtY := rfl
@[simp] theorem issue_filtZ (ph : Phase) (x : Txn) (s : State) : (issue ph x s).filtZ = s.filtZ := rfl
@[simp] theorem issue_seq (ph : Phase) (x : Txn) (s : State) : (issue ph x s).seq = ph := rfl
@[simp] theorem issue_cmdLatch (ph : Phase) (x : Txn) (s : State) : (issue ph x s).cmdLatch = s.cmdLatch := rfl
@[simp] theorem issue_failLatch (ph : Phase) (x : Txn) (s : State) : (issue ph x s).failLatch = s.failLatch := rfl
@[simp] theorem issue_dataLatch0 (ph : Phase) (x : Txn) (s : State) : (issue ph x s).dataLatch0 = s.dataLatch0 := rfl
@[simp] theorem issue_dataLatch1 (ph : Phase) (x : Txn) (s : State) : (issue ph x s).dataLatch1 = s.dataLatch1 := rfl
@[simp] theorem issue_dataLatch2 (ph : Phase) (x : Txn) (s : State) : (issue ph x s).dataLatch2 = s.dataLatch2 := rfl
@[simp] theorem issue_outTxn (ph : Phase) (x : Txn) (s : State) : (issue ph x s).outTxn = some x := rfl
@[simp] theorem issue_busAns (ph : Phase) (x : Txn) (s : State) : (issue ph x s).busAns = none := rfl
@[simp] theorem issue_history (ph : Phase) (x : Txn) (s : State) : (issue ph x s).history = ⟨x, none⟩ :: s.history := rfl
@[simp] theorem issue_responses (ph : Phase) (x : Txn) (s : State) : (issue ph x s).responses = s.responses := rfl
@[simp] theorem issue_hostWords (ph : Phase) (x : Txn) (s : State) : (issue ph x s).hostWords = s.hostWords := rfl
@[simp] theorem issue_events (ph : Phase) (x : Txn) (s : State) : (issue ph x s).events = s.events := rfl

@[simp] theorem takeAnswer_cfgRange (x : Txn) (d : Draw) (s : State) : (takeAnswer x d s).cfgRange = s.cfgRange := rfl
@[simp] theorem takeAnswer_cfgAsel (x : Txn) (d : Draw) (s : State) : (takeAnswer x d s).cfgAsel = s.cfgAsel := rfl
@[simp] theorem takeAnswer_configured (x : Txn) (d : Draw) (s : State) : (takeAnswer x d s).configured = s.configured := rfl
@[simp] theorem takeAnswer_filtX (x : Txn) (d : Draw) (s : State) : (takeAnswer x d s).filtX = s.filtX := rfl
@[simp] theorem takeAnswer_filtY (x : Txn) (d : Draw) (s : State) : (takeAnswer x d s).filtY = s.filtY := rfl
@[simp] theorem takeAnswer_filtZ (x : Txn) (d : Draw) (s : State) : (takeAnswer x d s).filtZ = s.filtZ := rfl
@[simp] theorem takeAnswer_seq (x : Txn) (d : Draw) (s : State) : (takeAnswer x d s).seq = s.seq := rfl
@[simp] theorem takeAnswer_cmdLatch (x : Txn) (d : Draw) (s : State) : (takeAnswer x d s).cmdLatch = s.cmdLatch := rfl
@[simp] theorem takeAnswer_failLatch (x : Txn) (d : Draw) (s : State) : (takeAnswer x d s).failLatch = s.failLatch := rfl
@[simp] theorem takeAnswer_dataLatch0 (x : Txn) (d : Draw) (s : State) : (takeAnswer x d s).dataLatch0 = s.dataLatch0 := rfl
@[simp] theorem takeAnswer_dataLatch1 (x : Txn) (d : Draw) (s : State) : (takeAnswer x d s).dataLatch1 = s.dataLatch1 := rfl
@[simp] theorem takeAnswer_dataLatch2 (x : Txn) (d : Draw) (s : State) : (takeAnswer x d s).dataLatch2 = s.dataLatch2 := rfl
@[simp] theorem takeAnswer_outTxn (x : Txn) (d : Draw) (s : State) : (takeAnswer x d s).outTxn = none := rfl
@[simp] theorem takeAnswer_busAns (x : Txn) (d : Draw) (s : State) : (takeAnswer x d s).busAns = some d := rfl
@[simp] theorem takeAnswer_history (x : Txn) (d : Draw) (s : State) : (takeAnswer x d s).history = ⟨x, some (answerTo x d)⟩ :: s.history.tail := rfl
@[simp] theorem takeAnswer_responses (x : Txn) (d : Draw) (s : State) : (takeAnswer x d s).responses = s.responses := rfl
@[simp] theorem takeAnswer_hostWords (x : Txn) (d : Draw) (s : State) : (takeAnswer x d s).hostWords = s.hostWords := rfl
@[simp] theorem takeAnswer_events (x : Txn) (d : Draw) (s : State) : (takeAnswer x d s).events = s.events := rfl

@[simp] theorem complete_cfgRange (c : Code) (f : BitVec 3) (d0 d1 d2 : Word) (s : State) : (complete c f d0 d1 d2 s).cfgRange = s.cfgRange := rfl
@[simp] theorem complete_cfgAsel (c : Code) (f : BitVec 3) (d0 d1 d2 : Word) (s : State) : (complete c f d0 d1 d2 s).cfgAsel = s.cfgAsel := rfl
@[simp] theorem complete_configured (c : Code) (f : BitVec 3) (d0 d1 d2 : Word) (s : State) : (complete c f d0 d1 d2 s).configured = s.configured := rfl
@[simp] theorem complete_filtX (c : Code) (f : BitVec 3) (d0 d1 d2 : Word) (s : State) : (complete c f d0 d1 d2 s).filtX = s.filtX := rfl
@[simp] theorem complete_filtY (c : Code) (f : BitVec 3) (d0 d1 d2 : Word) (s : State) : (complete c f d0 d1 d2 s).filtY = s.filtY := rfl
@[simp] theorem complete_filtZ (c : Code) (f : BitVec 3) (d0 d1 d2 : Word) (s : State) : (complete c f d0 d1 d2 s).filtZ = s.filtZ := rfl
@[simp] theorem complete_seq (c : Code) (f : BitVec 3) (d0 d1 d2 : Word) (s : State) : (complete c f d0 d1 d2 s).seq = .idle := rfl
@[simp] theorem complete_cmdLatch (c : Code) (f : BitVec 3) (d0 d1 d2 : Word) (s : State) : (complete c f d0 d1 d2 s).cmdLatch = 0#32 := rfl
@[simp] theorem complete_failLatch (c : Code) (f : BitVec 3) (d0 d1 d2 : Word) (s : State) : (complete c f d0 d1 d2 s).failLatch = 0#3 := rfl
@[simp] theorem complete_dataLatch0 (c : Code) (f : BitVec 3) (d0 d1 d2 : Word) (s : State) : (complete c f d0 d1 d2 s).dataLatch0 = 0#32 := rfl
@[simp] theorem complete_dataLatch1 (c : Code) (f : BitVec 3) (d0 d1 d2 : Word) (s : State) : (complete c f d0 d1 d2 s).dataLatch1 = 0#32 := rfl
@[simp] theorem complete_dataLatch2 (c : Code) (f : BitVec 3) (d0 d1 d2 : Word) (s : State) : (complete c f d0 d1 d2 s).dataLatch2 = 0#32 := rfl
@[simp] theorem complete_outTxn (c : Code) (f : BitVec 3) (d0 d1 d2 : Word) (s : State) : (complete c f d0 d1 d2 s).outTxn = none := rfl
@[simp] theorem complete_busAns (c : Code) (f : BitVec 3) (d0 d1 d2 : Word) (s : State) : (complete c f d0 d1 d2 s).busAns = none := rfl
@[simp] theorem complete_history (c : Code) (f : BitVec 3) (d0 d1 d2 : Word) (s : State) : (complete c f d0 d1 d2 s).history = s.history := rfl
@[simp] theorem complete_responses (c : Code) (f : BitVec 3) (d0 d1 d2 : Word) (s : State) : (complete c f d0 d1 d2 s).responses = responseOf c f d0 d1 d2 :: s.responses := rfl
@[simp] theorem complete_hostWords (c : Code) (f : BitVec 3) (d0 d1 d2 : Word) (s : State) : (complete c f d0 d1 d2 s).hostWords = s.hostWords := rfl
@[simp] theorem complete_events (c : Code) (f : BitVec 3) (d0 d1 d2 : Word) (s : State) : (complete c f d0 d1 d2 s).events = s.events := rfl

@[simp] theorem setFlag_cfgRange (f : BitVec 3) (s : State) : (setFlag f s).cfgRange = s.cfgRange := rfl
@[simp] theorem setFlag_cfgAsel (f : BitVec 3) (s : State) : (setFlag f s).cfgAsel = s.cfgAsel := rfl
@[simp] theorem setFlag_configured (f : BitVec 3) (s : State) : (setFlag f s).configured = s.configured := rfl
@[simp] theorem setFlag_filtX (f : BitVec 3) (s : State) : (setFlag f s).filtX = s.filtX := rfl
@[simp] theorem setFlag_filtY (f : BitVec 3) (s : State) : (setFlag f s).filtY = s.filtY := rfl
@[simp] theorem setFlag_filtZ (f : BitVec 3) (s : State) : (setFlag f s).filtZ = s.filtZ := rfl
@[simp] theorem setFlag_seq (f : BitVec 3) (s : State) : (setFlag f s).seq = s.seq := rfl
@[simp] theorem setFlag_cmdLatch (f : BitVec 3) (s : State) : (setFlag f s).cmdLatch = s.cmdLatch := rfl
@[simp] theorem setFlag_failLatch (f : BitVec 3) (s : State) : (setFlag f s).failLatch = s.failLatch ||| f := rfl
@[simp] theorem setFlag_dataLatch0 (f : BitVec 3) (s : State) : (setFlag f s).dataLatch0 = s.dataLatch0 := rfl
@[simp] theorem setFlag_dataLatch1 (f : BitVec 3) (s : State) : (setFlag f s).dataLatch1 = s.dataLatch1 := rfl
@[simp] theorem setFlag_dataLatch2 (f : BitVec 3) (s : State) : (setFlag f s).dataLatch2 = s.dataLatch2 := rfl
@[simp] theorem setFlag_outTxn (f : BitVec 3) (s : State) : (setFlag f s).outTxn = s.outTxn := rfl
@[simp] theorem setFlag_busAns (f : BitVec 3) (s : State) : (setFlag f s).busAns = s.busAns := rfl
@[simp] theorem setFlag_history (f : BitVec 3) (s : State) : (setFlag f s).history = s.history := rfl
@[simp] theorem setFlag_responses (f : BitVec 3) (s : State) : (setFlag f s).responses = s.responses := rfl
@[simp] theorem setFlag_hostWords (f : BitVec 3) (s : State) : (setFlag f s).hostWords = s.hostWords := rfl
@[simp] theorem setFlag_events (f : BitVec 3) (s : State) : (setFlag f s).events = s.events := rfl

@[simp] theorem capture_cfgRange (p : Params) (b : Six) (s : State) : (capture p b s).cfgRange = s.cfgRange := rfl
@[simp] theorem capture_cfgAsel (p : Params) (b : Six) (s : State) : (capture p b s).cfgAsel = s.cfgAsel := rfl
@[simp] theorem capture_configured (p : Params) (b : Six) (s : State) : (capture p b s).configured = s.configured := rfl
@[simp] theorem capture_filtX (p : Params) (b : Six) (s : State) : (capture p b s).filtX = (captured p b s).x := rfl
@[simp] theorem capture_filtY (p : Params) (b : Six) (s : State) : (capture p b s).filtY = (captured p b s).y := rfl
@[simp] theorem capture_filtZ (p : Params) (b : Six) (s : State) : (capture p b s).filtZ = (captured p b s).z := rfl
@[simp] theorem capture_seq (p : Params) (b : Six) (s : State) : (capture p b s).seq = s.seq := rfl
@[simp] theorem capture_cmdLatch (p : Params) (b : Six) (s : State) : (capture p b s).cmdLatch = s.cmdLatch := rfl
@[simp] theorem capture_failLatch (p : Params) (b : Six) (s : State) : (capture p b s).failLatch = s.failLatch := rfl
@[simp] theorem capture_dataLatch0 (p : Params) (b : Six) (s : State) : (capture p b s).dataLatch0 = s.dataLatch0 := rfl
@[simp] theorem capture_dataLatch1 (p : Params) (b : Six) (s : State) : (capture p b s).dataLatch1 = s.dataLatch1 := rfl
@[simp] theorem capture_dataLatch2 (p : Params) (b : Six) (s : State) : (capture p b s).dataLatch2 = s.dataLatch2 := rfl
@[simp] theorem capture_outTxn (p : Params) (b : Six) (s : State) : (capture p b s).outTxn = s.outTxn := rfl
@[simp] theorem capture_busAns (p : Params) (b : Six) (s : State) : (capture p b s).busAns = s.busAns := rfl
@[simp] theorem capture_history (p : Params) (b : Six) (s : State) : (capture p b s).history = s.history := rfl
@[simp] theorem capture_responses (p : Params) (b : Six) (s : State) : (capture p b s).responses = s.responses := rfl
@[simp] theorem capture_hostWords (p : Params) (b : Six) (s : State) : (capture p b s).hostWords = s.hostWords := rfl
@[simp] theorem capture_events (p : Params) (b : Six) (s : State) : (capture p b s).events = s.events := rfl

@[simp] theorem captureToLatch_cfgRange (p : Params) (b : Six) (s : State) : (captureToLatch p b s).cfgRange = s.cfgRange := rfl
@[simp] theorem captureToLatch_cfgAsel (p : Params) (b : Six) (s : State) : (captureToLatch p b s).cfgAsel = s.cfgAsel := rfl
@[simp] theorem captureToLatch_configured (p : Params) (b : Six) (s : State) : (captureToLatch p b s).configured = s.configured := rfl
@[simp] theorem captureToLatch_filtX (p : Params) (b : Six) (s : State) : (captureToLatch p b s).filtX = (captured p b s).x := rfl
@[simp] theorem captureToLatch_filtY (p : Params) (b : Six) (s : State) : (captureToLatch p b s).filtY = (captured p b s).y := rfl
@[simp] theorem captureToLatch_filtZ (p : Params) (b : Six) (s : State) : (captureToLatch p b s).filtZ = (captured p b s).z := rfl
@[simp] theorem captureToLatch_seq (p : Params) (b : Six) (s : State) : (captureToLatch p b s).seq = s.seq := rfl
@[simp] theorem captureToLatch_cmdLatch (p : Params) (b : Six) (s : State) : (captureToLatch p b s).cmdLatch = s.cmdLatch := rfl
@[simp] theorem captureToLatch_failLatch (p : Params) (b : Six) (s : State) : (captureToLatch p b s).failLatch = s.failLatch := rfl
@[simp] theorem captureToLatch_dataLatch0 (p : Params) (b : Six) (s : State) : (captureToLatch p b s).dataLatch0 = (captured p b s).x := rfl
@[simp] theorem captureToLatch_dataLatch1 (p : Params) (b : Six) (s : State) : (captureToLatch p b s).dataLatch1 = (captured p b s).y := rfl
@[simp] theorem captureToLatch_dataLatch2 (p : Params) (b : Six) (s : State) : (captureToLatch p b s).dataLatch2 = (captured p b s).z := rfl
@[simp] theorem captureToLatch_outTxn (p : Params) (b : Six) (s : State) : (captureToLatch p b s).outTxn = s.outTxn := rfl
@[simp] theorem captureToLatch_busAns (p : Params) (b : Six) (s : State) : (captureToLatch p b s).busAns = s.busAns := rfl
@[simp] theorem captureToLatch_history (p : Params) (b : Six) (s : State) : (captureToLatch p b s).history = s.history := rfl
@[simp] theorem captureToLatch_responses (p : Params) (b : Six) (s : State) : (captureToLatch p b s).responses = s.responses := rfl
@[simp] theorem captureToLatch_hostWords (p : Params) (b : Six) (s : State) : (captureToLatch p b s).hostWords = s.hostWords := rfl
@[simp] theorem captureToLatch_events (p : Params) (b : Six) (s : State) : (captureToLatch p b s).events = s.events := rfl

@[simp] theorem configureState_cfgRange (r : BitVec 2) (a : BitVec 1) (s : State) : (configureState r a s).cfgRange = r := rfl
@[simp] theorem configureState_cfgAsel (r : BitVec 2) (a : BitVec 1) (s : State) : (configureState r a s).cfgAsel = a := rfl
@[simp] theorem configureState_configured (r : BitVec 2) (a : BitVec 1) (s : State) : (configureState r a s).configured = true := rfl
@[simp] theorem configureState_filtX (r : BitVec 2) (a : BitVec 1) (s : State) : (configureState r a s).filtX = 0#32 := rfl
@[simp] theorem configureState_filtY (r : BitVec 2) (a : BitVec 1) (s : State) : (configureState r a s).filtY = 0#32 := rfl
@[simp] theorem configureState_filtZ (r : BitVec 2) (a : BitVec 1) (s : State) : (configureState r a s).filtZ = 0#32 := rfl
@[simp] theorem configureState_seq (r : BitVec 2) (a : BitVec 1) (s : State) : (configureState r a s).seq = s.seq := rfl
@[simp] theorem configureState_cmdLatch (r : BitVec 2) (a : BitVec 1) (s : State) : (configureState r a s).cmdLatch = s.cmdLatch := rfl
@[simp] theorem configureState_failLatch (r : BitVec 2) (a : BitVec 1) (s : State) : (configureState r a s).failLatch = s.failLatch := rfl
@[simp] theorem configureState_dataLatch0 (r : BitVec 2) (a : BitVec 1) (s : State) : (configureState r a s).dataLatch0 = s.dataLatch0 := rfl
@[simp] theorem configureState_dataLatch1 (r : BitVec 2) (a : BitVec 1) (s : State) : (configureState r a s).dataLatch1 = s.dataLatch1 := rfl
@[simp] theorem configureState_dataLatch2 (r : BitVec 2) (a : BitVec 1) (s : State) : (configureState r a s).dataLatch2 = s.dataLatch2 := rfl
@[simp] theorem configureState_outTxn (r : BitVec 2) (a : BitVec 1) (s : State) : (configureState r a s).outTxn = s.outTxn := rfl
@[simp] theorem configureState_busAns (r : BitVec 2) (a : BitVec 1) (s : State) : (configureState r a s).busAns = s.busAns := rfl
@[simp] theorem configureState_history (r : BitVec 2) (a : BitVec 1) (s : State) : (configureState r a s).history = s.history := rfl
@[simp] theorem configureState_responses (r : BitVec 2) (a : BitVec 1) (s : State) : (configureState r a s).responses = s.responses := rfl
@[simp] theorem configureState_hostWords (r : BitVec 2) (a : BitVec 1) (s : State) : (configureState r a s).hostWords = s.hostWords := rfl
@[simp] theorem configureState_events (r : BitVec 2) (a : BitVec 1) (s : State) : (configureState r a s).events = s.events := rfl

@[simp] theorem resetEvent_cfgRange (p : Params) (s : State) : (resetEvent p s).cfgRange = p.resetRange := rfl
@[simp] theorem resetEvent_cfgAsel (p : Params) (s : State) : (resetEvent p s).cfgAsel = p.resetAsel := rfl
@[simp] theorem resetEvent_configured (p : Params) (s : State) : (resetEvent p s).configured = false := rfl
@[simp] theorem resetEvent_filtX (p : Params) (s : State) : (resetEvent p s).filtX = 0#32 := rfl
@[simp] theorem resetEvent_filtY (p : Params) (s : State) : (resetEvent p s).filtY = 0#32 := rfl
@[simp] theorem resetEvent_filtZ (p : Params) (s : State) : (resetEvent p s).filtZ = 0#32 := rfl
@[simp] theorem resetEvent_seq (p : Params) (s : State) : (resetEvent p s).seq = .idle := rfl
@[simp] theorem resetEvent_cmdLatch (p : Params) (s : State) : (resetEvent p s).cmdLatch = 0#32 := rfl
@[simp] theorem resetEvent_failLatch (p : Params) (s : State) : (resetEvent p s).failLatch = 0#3 := rfl
@[simp] theorem resetEvent_dataLatch0 (p : Params) (s : State) : (resetEvent p s).dataLatch0 = 0#32 := rfl
@[simp] theorem resetEvent_dataLatch1 (p : Params) (s : State) : (resetEvent p s).dataLatch1 = 0#32 := rfl
@[simp] theorem resetEvent_dataLatch2 (p : Params) (s : State) : (resetEvent p s).dataLatch2 = 0#32 := rfl
@[simp] theorem resetEvent_outTxn (p : Params) (s : State) : (resetEvent p s).outTxn = none := rfl
@[simp] theorem resetEvent_busAns (p : Params) (s : State) : (resetEvent p s).busAns = none := rfl
@[simp] theorem resetEvent_history (p : Params) (s : State) : (resetEvent p s).history = s.history := rfl
@[simp] theorem resetEvent_responses (p : Params) (s : State) : (resetEvent p s).responses = s.responses := rfl
@[simp] theorem resetEvent_hostWords (p : Params) (s : State) : (resetEvent p s).hostWords = s.hostWords := rfl
@[simp] theorem resetEvent_events (p : Params) (s : State) : (resetEvent p s).events = s.events := rfl

end Sys2Proof.Machine
end

