-- ==== Sys2Proof/Laws/Exec.lean ====
section
/-! SUPPORT. What a command's meaning can answer (one inversion lemma per shared operation), and that `exec` is the dispatch of
Engine.lean at the hardware's parameters. -/

namespace Sys2Proof.Machine

theorem exec_eq_commandWith (i : Instr) (s : State) : exec i s = commandWith Config.params i s := by
  cases i <;> rfl

/-- What a one-transaction command does with an `Ok` answer (R120, R122, R145, R200 to R202). -/
def okState (p : Params) (i : Instr) (b : Six) (s : State) : State :=
  match i with
  | .configure range asel => complete .ok 0#3 0#32 0#32 0#32 (configureState range asel s)
  | .powerOn => complete .ok 0#3 0#32 0#32 0#32 s
  | .readAccel =>
    let f := captured p b s
    complete .ok 0#3 f.x f.y f.z (capture p b s)
  | .selfTest => s
  | .readOffset => complete .ok 0#3 (sext32 b.b0) (sext32 b.b1) (sext32 b.b2) s
  | .writeOffset _ _ _ => complete .ok 0#3 0#32 0#32 0#32 s
  | .readDevid => complete .ok 0#3 (zext32 b.b0) 0#32 0#32 s

/-- Every command but SELF_TEST is `oneTransaction` over its row of R60. -/
theorem commandWith_oneTransaction (p : Params) (i : Instr) (s : State) (h : i ≠ .selfTest) :
    commandWith p i s = oneTransaction (!i.isConfigure) (firstTxn p i s) (okState p i) s := by
  cases i <;> first | rfl | exact absurd rfl h

/-- Everything a one-transaction command can do when it goes on. -/
theorem oneTransaction_next {n : Bool} {x : Txn} {k : Six → State → State} {s t : State}
    (h : oneTransaction n x k s = .next t) :
    (s.seq = .idle ∧ n = true ∧ s.configured = false ∧ t = refuseUnconfigured s) ∨
    (s.seq = .idle ∧ (n = false ∨ s.configured = true) ∧ t = issue .xfer x s) ∨
    (s.seq = .xfer ∧ s.busAns = some .fail ∧ t = failCommand s) ∨
    (s.seq = .xfer ∧ ∃ b, s.busAns = some (.ok b) ∧ t = k b s) := by
  unfold oneTransaction at h
  split at h
  · split at h <;> simp_all
    cases n <;> simp_all
  all_goals simp_all

/-- Everything SELF_TEST can do when it goes on: the rows of R161. -/
theorem selfTestWith_next {p : Params} {s t : State} (h : selfTestWith p s = .next t) :
    (s.seq = .idle ∧ s.configured = false ∧ t = refuseUnconfigured s) ∨
    (s.seq = .idle ∧ s.configured = true ∧ t = issue .stEnter (enterTxn p s) s) ∨
    (s.seq = .stEnter ∧ (∃ b, s.busAns = some (.ok b)) ∧ t = issue .stCapture (dataTxn p s) s) ∨
    (s.seq = .stEnter ∧ s.busAns = some .fail ∧ t = toRestore p (setFlag failMain s)) ∨
    (s.seq = .stCapture ∧ ∃ b, s.busAns = some (.ok b) ∧ t = toRestore p (captureToLatch p b s)) ∨
    (s.seq = .stCapture ∧ s.busAns = some .fail ∧ t = toRestore p (setFlag failCapture s)) ∨
    (s.seq = .stRestore ∧ (∃ b, s.busAns = some (.ok b)) ∧ t = finishSelfTest s) ∨
    (s.seq = .stRestore ∧ s.busAns = some .fail ∧ t = finishSelfTest (setFlag failRestore s)) := by
  unfold selfTestWith at h
  split at h
  · split at h <;> simp_all
  all_goals simp_all

/-- Everything a command's meaning can do when it goes on (R103, R104, R161), by name. -/
inductive ExecCase (p : Params) (i : Instr) (s : State) : State → Prop where
  | refused : s.seq = .idle → i.isConfigure = false → s.configured = false → ExecCase p i s (refuseUnconfigured s)
  | issued : s.seq = .idle → (i.isConfigure = true ∨ s.configured = true) →
      ExecCase p i s (issue (if i = .selfTest then .stEnter else .xfer) (firstTxn p i s) s)
  | failed : s.seq = .xfer → i ≠ .selfTest → s.busAns = some .fail → ExecCase p i s (failCommand s)
  | done (b : Six) : s.seq = .xfer → i ≠ .selfTest → s.busAns = some (.ok b) → ExecCase p i s (okState p i b s)
  | enterOk (b : Six) : i = .selfTest → s.seq = .stEnter → s.busAns = some (.ok b) →
      ExecCase p i s (issue .stCapture (dataTxn p s) s)
  | enterFail : i = .selfTest → s.seq = .stEnter → s.busAns = some .fail →
      ExecCase p i s (toRestore p (setFlag failMain s))
  | captureOk (b : Six) : i = .selfTest → s.seq = .stCapture → s.busAns = some (.ok b) →
      ExecCase p i s (toRestore p (captureToLatch p b s))
  | captureFail : i = .selfTest → s.seq = .stCapture → s.busAns = some .fail →
      ExecCase p i s (toRestore p (setFlag failCapture s))
  | restoreOk (b : Six) : i = .selfTest → s.seq = .stRestore → s.busAns = some (.ok b) →
      ExecCase p i s (finishSelfTest s)
  | restoreFail : i = .selfTest → s.seq = .stRestore → s.busAns = some .fail →
      ExecCase p i s (finishSelfTest (setFlag failRestore s))

theorem commandWith_next {p : Params} {i : Instr} {s t : State} (h : commandWith p i s = .next t) : ExecCase p i s t := by
  by_cases hst : i = .selfTest
  · subst hst
    rcases selfTestWith_next h with ⟨h1, h2, rfl⟩ | ⟨h1, h2, rfl⟩ | ⟨h1, ⟨b, h2⟩, rfl⟩ | ⟨h1, h2, rfl⟩ | ⟨h1, b, h2, rfl⟩ |
      ⟨h1, h2, rfl⟩ | ⟨h1, ⟨b, h2⟩, rfl⟩ | ⟨h1, h2, rfl⟩
    · exact .refused h1 rfl h2
    · exact .issued (i := .selfTest) h1 (.inr h2)
    · exact .enterOk b rfl h1 h2
    · exact .enterFail rfl h1 h2
    · exact .captureOk b rfl h1 h2
    · exact .captureFail rfl h1 h2
    · exact .restoreOk b rfl h1 h2
    · exact .restoreFail rfl h1 h2
  · rw [commandWith_oneTransaction _ _ _ hst] at h
    rcases oneTransaction_next h with ⟨h1, h2, h3, rfl⟩ | ⟨h1, h2, rfl⟩ | ⟨h1, h2, rfl⟩ | ⟨h1, b, h2, rfl⟩
    · exact .refused h1 (by simpa using h2) h3
    · have := ExecCase.issued (p := p) (i := i) h1 (h2.imp (by simp) id)
      rwa [if_neg hst] at this
    · exact .failed h1 hst h2
    · exact .done b h1 hst h2

theorem exec_next {i : Instr} {s t : State} (h : exec i s = .next t) : ExecCase Config.params i s t :=
  commandWith_next (exec_eq_commandWith i s ▸ h)

/-- Everything one micro-step can do when it goes on (R101, R103, R104, R250), each case with the event it consumes. -/
theorem step_next {s t : State} (h : step s = .next t) :
    (∃ es, s.events = .reset :: es ∧ t = resetEvent Config.params { s with events := es }) ∨
    (∃ es, s.events = .present :: es ∧ (s.seq ≠ .idle ∨ s.hostWords = []) ∧ t = { s with events := es }) ∨
    (∃ es w ws why, s.events = .present :: es ∧ s.seq = .idle ∧ s.hostWords = w :: ws ∧ decode w = .illegal why ∧
      t = refuseIllegal (latchCommand w { s with events := es, hostWords := ws })) ∨
    (∃ es w ws i, s.events = .present :: es ∧ s.seq = .idle ∧ s.hostWords = w :: ws ∧ decode w = .cmd i ∧
      exec i (latchCommand w { s with events := es, hostWords := ws }) = .next t) ∨
    (∃ es d, s.events = .answer d :: es ∧ s.outTxn = none ∧ t = { s with events := es }) ∨
    (∃ es d x i, s.events = .answer d :: es ∧ s.outTxn = some x ∧ s.seq ≠ .idle ∧ decode s.cmdLatch = .cmd i ∧
      exec i (takeAnswer x d { s with events := es }) = .next t) := by
  unfold step microStep at h
  split at h
  · simp at h
  · rename_i es he
    simp only [Host.Outcome.next.injEq] at h
    exact .inl ⟨es, he, h.symm⟩
  · rename_i es he
    unfold presentStep at h
    split at h
    · rename_i w ws hs hw
      unfold acceptStep at h
      split at h
      · rename_i why hd
        simp only [Host.Outcome.next.injEq] at h
        exact .inr (.inr (.inl ⟨es, w, ws, why, he, hs, hw, hd, h.symm⟩))
      · rename_i i hd
        exact .inr (.inr (.inr (.inl ⟨es, w, ws, i, he, hs, hw, hd, h⟩)))
    · rename_i hn
      simp only [Host.Outcome.next.injEq] at h
      refine .inr (.inl ⟨es, he, ?_, h.symm⟩)
      by_contra hc
      simp only [ne_eq, not_or, not_not] at hc
      cases hw : s.hostWords with
      | nil => exact hc.2 hw
      | cons w ws => exact hn w ws hc.1 hw
  · rename_i d es he
    unfold answerStep at h
    split at h
    · rename_i ho
      simp only [Host.Outcome.next.injEq] at h
      exact .inr (.inr (.inr (.inr (.inl ⟨es, d, he, ho, h.symm⟩))))
    · rename_i x ho
      split at h
      · simp at h
      · simp at h
      · rename_i hs hd hne
        exact .inr (.inr (.inr (.inr (.inr ⟨es, d, x, _, he, ho, hne, hd, h⟩))))

/-- The state in which an accepted word's command is dispatched (R101). -/
def accepting (w : Word) (ws : List Word) (es : List Event) (s : State) : State :=
  latchCommand w { s with events := es, hostWords := ws }

/-- The state in which an answer's command continues (R104). -/
def answering (x : Txn) (d : Draw) (es : List Event) (s : State) : State := takeAnswer x d { s with events := es }

/-- The micro-steps of this hardware, by name: `step_next` with the command's own cases. -/
inductive StepCase (s : State) : State → Prop where
  | reset (es : List Event) : s.events = .reset :: es → StepCase s (resetEvent Config.params { s with events := es })
  | notAccepted (es : List Event) : s.events = .present :: es → (s.seq ≠ .idle ∨ s.hostWords = []) →
      StepCase s { s with events := es }
  | illegalWord (es : List Event) (w : Word) (ws : List Word) (why : Illegal) : s.events = .present :: es → s.seq = .idle →
      s.hostWords = w :: ws → decode w = .illegal why → StepCase s (refuseIllegal (accepting w ws es s))
  | unconfigured (es : List Event) (w : Word) (ws : List Word) (i : Instr) : s.events = .present :: es → s.seq = .idle →
      s.hostWords = w :: ws → decode w = .cmd i → i.isConfigure = false → s.configured = false →
      StepCase s (refuseUnconfigured (accepting w ws es s))
  | issued (es : List Event) (w : Word) (ws : List Word) (i : Instr) : s.events = .present :: es → s.seq = .idle →
      s.hostWords = w :: ws → decode w = .cmd i → (i.isConfigure = true ∨ s.configured = true) →
      StepCase s (issue (if i = .selfTest then .stEnter else .xfer) (firstTxn Config.params i s) (accepting w ws es s))
  | lateAnswer (es : List Event) (d : Draw) : s.events = .answer d :: es → s.outTxn = none → StepCase s { s with events := es }
  | failed (es : List Event) (x : Txn) (i : Instr) : s.events = .answer .fail :: es → s.outTxn = some x → s.seq = .xfer →
      decode s.cmdLatch = .cmd i → i ≠ .selfTest → StepCase s (failCommand (answering x .fail es s))
  | done (es : List Event) (x : Txn) (i : Instr) (b : Six) : s.events = .answer (.ok b) :: es → s.outTxn = some x →
      s.seq = .xfer → decode s.cmdLatch = .cmd i → i ≠ .selfTest →
      StepCase s (okState Config.params i b (answering x (.ok b) es s))
  | enterOk (es : List Event) (x : Txn) (b : Six) : s.events = .answer (.ok b) :: es → s.outTxn = some x →
      s.seq = .stEnter → decode s.cmdLatch = .cmd .selfTest →
      StepCase s (issue .stCapture (dataTxn Config.params s) (answering x (.ok b) es s))
  | enterFail (es : List Event) (x : Txn) : s.events = .answer .fail :: es → s.outTxn = some x →
      s.seq = .stEnter → decode s.cmdLatch = .cmd .selfTest →
      StepCase s (toRestore Config.params (setFlag failMain (answering x .fail es s)))
  | captureOk (es : List Event) (x : Txn) (b : Six) : s.events = .answer (.ok b) :: es → s.outTxn = some x →
      s.seq = .stCapture → decode s.cmdLatch = .cmd .selfTest →
      StepCase s (toRestore Config.params (captureToLatch Config.params b (answering x (.ok b) es s)))
  | captureFail (es : List Event) (x : Txn) : s.events = .answer .fail :: es → s.outTxn = some x →
      s.seq = .stCapture → decode s.cmdLatch = .cmd .selfTest →
      StepCase s (toRestore Config.params (setFlag failCapture (answering x .fail es s)))
  | restoreOk (es : List Event) (x : Txn) (b : Six) : s.events = .answer (.ok b) :: es → s.outTxn = some x →
      s.seq = .stRestore → decode s.cmdLatch = .cmd .selfTest →
      StepCase s (finishSelfTest (answering x (.ok b) es s))
  | restoreFail (es : List Event) (x : Txn) : s.events = .answer .fail :: es → s.outTxn = some x →
      s.seq = .stRestore → decode s.cmdLatch = .cmd .selfTest →
      StepCase s (finishSelfTest (setFlag failRestore (answering x .fail es s)))

theorem step_cases {s t : State} (h : step s = .next t) : StepCase s t := by
  rcases step_next h with ⟨es, he, rfl⟩ | ⟨es, he, hn, rfl⟩ | ⟨es, w, ws, why, he, hs, hw, hd, rfl⟩ |
    ⟨es, w, ws, i, he, hs, hw, hd, hx⟩ | ⟨es, d, he, ho, rfl⟩ | ⟨es, d, x, i, he, ho, hs, hd, hx⟩
  · exact .reset es he
  · exact .notAccepted es he hn
  · exact .illegalWord es w ws why he hs hw hd
  · cases exec_next hx with
    | refused _ h2 h3 => exact .unconfigured es w ws i he hs hw hd h2 h3
    | issued _ h2 => exact .issued es w ws i he hs hw hd h2
    | failed h1 => exact absurd (hs.symm.trans h1) (by simp)
    | done b h1 => exact absurd (hs.symm.trans h1) (by simp)
    | enterOk b _ h1 => exact absurd (hs.symm.trans h1) (by simp)
    | enterFail _ h1 => exact absurd (hs.symm.trans h1) (by simp)
    | captureOk b _ h1 => exact absurd (hs.symm.trans h1) (by simp)
    | captureFail _ h1 => exact absurd (hs.symm.trans h1) (by simp)
    | restoreOk b _ h1 => exact absurd (hs.symm.trans h1) (by simp)
    | restoreFail _ h1 => exact absurd (hs.symm.trans h1) (by simp)
  · exact .lateAnswer es d he ho
  · cases exec_next hx with
    | refused h1 => exact absurd h1 hs
    | issued h1 => exact absurd h1 hs
    | failed h1 h2 h3 =>
      obtain rfl : d = .fail := by simpa using h3
      exact .failed es x i he ho h1 hd h2
    | done b h1 h2 h3 =>
      obtain rfl : d = .ok b := by simpa using h3
      exact .done es x i b he ho h1 hd h2
    | enterOk b h1 h2 h3 =>
      obtain rfl : d = .ok b := by simpa using h3
      exact .enterOk es x b he ho h2 (h1 ▸ hd)
    | enterFail h1 h2 h3 =>
      obtain rfl : d = .fail := by simpa using h3
      exact .enterFail es x he ho h2 (h1 ▸ hd)
    | captureOk b h1 h2 h3 =>
      obtain rfl : d = .ok b := by simpa using h3
      exact .captureOk es x b he ho h2 (h1 ▸ hd)
    | captureFail h1 h2 h3 =>
      obtain rfl : d = .fail := by simpa using h3
      exact .captureFail es x he ho h2 (h1 ▸ hd)
    | restoreOk b h1 h2 h3 =>
      obtain rfl : d = .ok b := by simpa using h3
      exact .restoreOk es x b he ho h2 (h1 ▸ hd)
    | restoreFail h1 h2 h3 =>
      obtain rfl : d = .fail := by simpa using h3
      exact .restoreFail es x he ho h2 (h1 ▸ hd)

/-- Each case of a command's meaning is taken: the other direction of `exec_next`. -/
theorem exec_of_case {i : Instr} {s t : State} (h : ExecCase Config.params i s t) : exec i s = .next t := by
  rw [exec_eq_commandWith]
  by_cases hst : i = .selfTest
  · subst hst
    cases h with
    | refused h1 _ h3 => simp [commandWith, selfTestWith, h1, h3]
    | issued h1 h2 =>
      have h2 : s.configured = true := by simpa [Instr.isConfigure] using h2
      simp [commandWith, selfTestWith, h1, h2, firstTxn]
    | failed _ h2 => exact absurd rfl h2
    | done b _ h2 => exact absurd rfl h2
    | enterOk b _ h1 h2 => simp [commandWith, selfTestWith, h1, h2]
    | enterFail _ h1 h2 => simp [commandWith, selfTestWith, h1, h2]
    | captureOk b _ h1 h2 => simp [commandWith, selfTestWith, h1, h2]
    | captureFail _ h1 h2 => simp [commandWith, selfTestWith, h1, h2]
    | restoreOk b _ h1 h2 => simp [commandWith, selfTestWith, h1, h2]
    | restoreFail _ h1 h2 => simp [commandWith, selfTestWith, h1, h2]
  · rw [commandWith_oneTransaction _ _ _ hst]
    cases h with
    | refused h1 h2 h3 => simp [oneTransaction, h1, h2, h3]
    | issued h1 h2 =>
      rw [if_neg hst]
      rcases h2 with h2 | h2 <;> simp [oneTransaction, h1, h2]
    | failed h1 _ h3 => simp [oneTransaction, h1, h3]
    | done b h1 _ h3 => simp [oneTransaction, h1, h3]
    | enterOk b h1 => exact absurd h1 hst
    | enterFail h1 => exact absurd h1 hst
    | captureOk b h1 => exact absurd h1 hst
    | captureFail h1 => exact absurd h1 hst
    | restoreOk b h1 => exact absurd h1 hst
    | restoreFail h1 => exact absurd h1 hst

/-- A word presented to an idle engine runs its command (R101, R103). -/
theorem step_accepting {s : State} {es : List Event} {w : Word} {ws : List Word} {i : Instr} (he : s.events = .present :: es)
    (hs : s.seq = .idle) (hw : s.hostWords = w :: ws) (hd : decode w = .cmd i) : step s = exec i (accepting w ws es s) := by
  simp only [step, microStep, he, presentStep, hs, hw, acceptStep, hd, accepting]

/-- An answer to the outstanding transaction continues the latched command (R104). -/
theorem step_answering {s : State} {es : List Event} {x : Txn} {d : Draw} {i : Instr} (he : s.events = .answer d :: es)
    (ho : s.outTxn = some x) (hs : s.seq ≠ .idle) (hd : decode s.cmdLatch = .cmd i) :
    step s = exec i (answering x d es s) := by
  simp only [step, microStep, he, answerStep, ho, hd]
  cases hq : s.seq <;> first | exact absurd hq hs | simp only [answering, hq, ho]

/-- Each micro-step case is taken: the other direction of `step_cases`. -/
theorem step_of_case {s t : State} (h : StepCase s t) : step s = .next t := by
  cases h with
  | reset es he => simp only [step, microStep, he]
  | notAccepted es he hn =>
    simp only [step, microStep, he, presentStep]
    split
    · rename_i hs hw
      exact absurd hn (by simp_all)
    · rfl
  | illegalWord es w ws why he hs hw hd =>
    simp only [step, microStep, he, presentStep, hs, hw, acceptStep, hd]
    simp only [accepting, hs]
  | unconfigured es w ws i he hs hw hd hi hc =>
    rw [step_accepting he hs hw hd]
    exact exec_of_case (.refused hs hi hc)
  | issued es w ws i he hs hw hd hc =>
    rw [step_accepting he hs hw hd]
    have : firstTxn Config.params i s = firstTxn Config.params i (accepting w ws es s) := by cases i <;> rfl
    rw [this]
    exact exec_of_case (.issued hs hc)
  | lateAnswer es d he ho => simp only [step, microStep, he, answerStep, ho]
  | failed es x i he ho hs hd hi =>
    rw [step_answering he ho (by simp [hs]) hd]
    exact exec_of_case (.failed hs hi rfl)
  | done es x i b he ho hs hd hi =>
    rw [step_answering he ho (by simp [hs]) hd]
    exact exec_of_case (.done b hs hi rfl)
  | enterOk es x b he ho hs hd =>
    rw [step_answering he ho (by simp [hs]) hd]
    exact exec_of_case (.enterOk b rfl hs rfl)
  | enterFail es x he ho hs hd =>
    rw [step_answering he ho (by simp [hs]) hd]
    exact exec_of_case (.enterFail rfl hs rfl)
  | captureOk es x b he ho hs hd =>
    rw [step_answering he ho (by simp [hs]) hd]
    exact exec_of_case (.captureOk b rfl hs rfl)
  | captureFail es x he ho hs hd =>
    rw [step_answering he ho (by simp [hs]) hd]
    exact exec_of_case (.captureFail rfl hs rfl)
  | restoreOk es x b he ho hs hd =>
    rw [step_answering he ho (by simp [hs]) hd]
    exact exec_of_case (.restoreOk b rfl hs rfl)
  | restoreFail es x he ho hs hd =>
    rw [step_answering he ho (by simp [hs]) hd]
    exact exec_of_case (.restoreFail rfl hs rfl)

/-- A run whose first step goes on. -/
theorem runSteps_succ {n : Nat} {s t : State} (h : step s = .next t) : runSteps (n + 1) s = runSteps n t := by
  have h' : Sys2Proof.core.step s = .next t := h
  simp only [runSteps, Host.Core.run, h']
  rfl

@[simp] theorem runSteps_zero (s : State) : runSteps 0 s = .next s := rfl

end Sys2Proof.Machine
end

