-- ==== Sys2Proof/Laws/Memory.lean ====
section
/-! SUPPORT. The reference sensor's store: every operation keeps the canonical form, and the read-after-write laws. -/

namespace Sys2Proof.Machine

theorem Memory.wfFrom_mono {lo lo' : Nat} (h : lo' ≤ lo) : ∀ {m : Memory}, Memory.wfFrom lo m = true → Memory.wfFrom lo' m = true
  | [], _ => rfl
  | c :: m, hw => by
    simp only [Memory.wfFrom, Bool.and_eq_true, decide_eq_true_eq] at hw ⊢
    exact ⟨⟨⟨by omega, hw.1.1.2⟩, hw.1.2⟩, hw.2⟩

theorem Memory.wfFrom_put {lo k : Nat} {v : Byte} {m : Memory} (hlo : lo ≤ k) (hk : k < 256)
    (hm : Memory.wfFrom (k + 1) m = true) : Memory.wfFrom lo (Memory.put k v m) = true := by
  unfold Memory.put
  split
  · exact Memory.wfFrom_mono (by omega) hm
  · simp [Memory.wfFrom, *]

theorem Memory.wfFrom_write {k : Nat} {v : Byte} (hk : k < 256) :
    ∀ {m : Memory} {lo : Nat}, lo ≤ k → Memory.wfFrom lo m = true → Memory.wfFrom lo (Memory.write m k v) = true
  | [], lo, hlo, _ => Memory.wfFrom_put hlo hk rfl
  | c :: m, lo, hlo, hm => by
    simp only [Memory.wfFrom, Bool.and_eq_true, decide_eq_true_eq] at hm
    unfold Memory.write
    split
    · exact Memory.wfFrom_put hlo hk (by simp [Memory.wfFrom, hm]; omega)
    · split
      · rename_i hkc
        exact Memory.wfFrom_put hlo hk (hkc ▸ hm.2)
      · simp only [Memory.wfFrom, Bool.and_eq_true, decide_eq_true_eq]
        exact ⟨hm.1, Memory.wfFrom_write hk (by omega) hm.2⟩

/-- A write keeps the canonical form. -/
theorem Memory.wf_write {m : Memory} {k : Nat} {v : Byte} (hk : k < 256) (hm : m.wf = true) : (m.write k v).wf = true :=
  Memory.wfFrom_write hk (Nat.zero_le k) hm

/-- A write transaction inside the register space keeps the canonical form. -/
theorem Memory.wf_writeBytes : ∀ (vs : List Byte) {m : Memory} {k : Nat}, k + vs.length ≤ 256 → m.wf = true →
    (m.writeBytes k vs).wf = true
  | [], _, _, _, hm => hm
  | v :: vs, m, k, hk, hm => by
    simp only [List.length_cons] at hk
    exact Memory.wf_writeBytes vs (by omega) (Memory.wf_write (by omega) hm)

/-- Below every listed offset, a canonical store reads as blank. -/
theorem Memory.read_below {k : Nat} : ∀ {m : Memory} {lo : Nat}, k < lo → Memory.wfFrom lo m = true → m.read k = Memory.blank
  | [], _, _, _ => rfl
  | c :: m, lo, hk, hm => by
    simp only [Memory.wfFrom, Bool.and_eq_true, decide_eq_true_eq] at hm
    unfold Memory.read
    rw [if_neg (by omega)]
    exact Memory.read_below (by omega) hm.2

theorem Memory.read_put {k j : Nat} {v : Byte} {m : Memory} (hm : Memory.wfFrom (k + 1) m = true) :
    (Memory.put k v m).read j = if j = k then v else m.read j := by
  unfold Memory.put
  split
  · rename_i hv
    split
    · rename_i hj
      rw [Memory.read_below (by omega) hm, hv]
    · rfl
  · simp only [Memory.read, eq_comm]

theorem Memory.read_write_from {k j : Nat} {v : Byte} : ∀ {m : Memory} {lo : Nat}, Memory.wfFrom lo m = true →
    (m.write k v).read j = if j = k then v else m.read j
  | [], _, _ => Memory.read_put rfl
  | c :: m, lo, hm => by
    have hm' := hm
    simp only [Memory.wfFrom, Bool.and_eq_true, decide_eq_true_eq] at hm
    unfold Memory.write
    split
    · exact Memory.read_put (by simp [Memory.wfFrom, hm]; omega)
    · split
      · rename_i hkc
        rw [Memory.read_put (hkc ▸ hm.2)]
        simp only [Memory.read]
        split
        · rfl
        · rw [if_neg (by omega)]
      · simp only [Memory.read, Memory.read_write_from hm.2]
        split
        · rw [if_neg (by omega)]
        · rfl

/-- A read after a write: the byte written at its offset, every other offset as before. -/
theorem Memory.read_write {m : Memory} (hm : m.wf = true) (k j : Nat) (v : Byte) :
    (m.write k v).read j = if j = k then v else m.read j :=
  Memory.read_write_from hm

end Sys2Proof.Machine
end

