-- ==== Sys2Proof/Laws/PerInstr.lean ====
section
/-! SUPPORT. Per-instruction families: one lemma for each constructor of `Instr`. -/

/-- A command's encoding selects the command's own row of the opcode map (R84). -/
def Sys2Proof.Laws.EncodingSelectsItsRow.Statement (i : Sys2Proof.Instr) : Prop :=
  i.row.selects (Sys2Proof.encode i) = true

namespace Sys2Proof.Laws.EncodingSelectsItsRow

theorem configure (range : BitVec 2) (asel : BitVec 1) : Statement (.configure range asel) := by
  revert range asel
  unfold Statement
  decide

theorem powerOn : Statement .powerOn := by unfold Statement; decide

theorem readAccel : Statement .readAccel := by unfold Statement; decide

theorem selfTest : Statement .selfTest := by unfold Statement; decide

theorem readOffset : Statement .readOffset := by unfold Statement; decide

theorem writeOffset (ox oy oz : Byte) : Statement (.writeOffset ox oy oz) := by
  have h : encode (.writeOffset ox oy oz) &&& 0xFF000000#32 = 0x60000000#32 := by
    apply BitVec.eq_of_getElem_eq
    intro i hi
    unfold encode commandWord
    simp only [BitVec.getElem_and, BitVec.getElem_append]
    interval_cases i <;> simp
  unfold Statement Row.selects Instr.row
  simpa using h

theorem readDevid : Statement .readDevid := by unfold Statement; decide

end Sys2Proof.Laws.EncodingSelectsItsRow
end

