-- ==== Sys2Proof/Laws/Run.lean ====
section
/-! SUPPORT. Runs as flat updates of the state they start from: the accept step of an offered word, the answer step of a
one-transaction command, and each row of the self-test sequencer. A proof about a whole command chains these and never unfolds
a step. -/

namespace Sys2Proof.Machine

/-- What an idle engine that meets the invariant holds. -/
theorem idle_latches {s : State} (hi : Inv s) (hs : s.seq = .idle) :
    s.outTxn = none ∧ s.busAns = none ∧ s.cmdLatch = 0#32 ∧ s.failLatch = 0#3 ∧
      s.dataLatch0 = 0#32 ∧ s.dataLatch1 = 0#32 ∧ s.dataLatch2 = 0#32 := by
  have hp := hi.phase
  simp only [phaseInv, hs, latchesFresh, dataClear] at hp
  exact ⟨hp.1, hi.port, hp.2.1, hp.2.2.1, hp.2.2.2⟩

/-- An outstanding transaction is the pending head of the history, and the engine is busy (R30, R55). -/
theorem outstanding_history {s : State} (hi : Inv s) {x : Txn} (hx : s.outTxn = some x) :
    s.seq ≠ .idle ∧ ∃ h, s.history = ⟨x, none⟩ :: h := by
  have hp := hi.phase
  have key : ∀ y, outstanding y s → ∃ h, s.history = ⟨x, none⟩ :: h := by
    rintro y ⟨h1, h2⟩
    obtain rfl : x = y := by simpa [hx] using h1
    cases hh : s.history with
    | nil => simp [hh] at h2
    | cons e l =>
      obtain rfl : e = ⟨x, none⟩ := by simpa [hh] using h2
      exact ⟨l, rfl⟩
  unfold phaseInv at hp
  split at hp <;> rename_i hq
  · simp [hx] at hp
  · obtain ⟨_, _, _, _, _, ho⟩ := hp
    exact ⟨by simp [hq], key _ ho⟩
  all_goals exact ⟨by simp [hq], key _ hp.1.2.2⟩

/-- `s` with the command word `w` in progress in phase `ph`: `x` is outstanding after the events `h`, the failure latch, the data
latches and the filter registers hold `fl`, `d` and `f`, and the outside agents hold `ws` and `es`. -/
def inProgress (ph : Phase) (w : Word) (x : Txn) (h : List TxnEvent) (fl : BitVec 3) (d f : Sample) (ws : List Word)
    (es : List Event) (s : State) : State :=
  { s with
    seq := ph, cmdLatch := w, outTxn := some x, busAns := none, history := ⟨x, none⟩ :: h, failLatch := fl,
    dataLatch0 := d.x, dataLatch1 := d.y, dataLatch2 := d.z, filtX := f.x, filtY := f.y, filtZ := f.z,
    hostWords := ws, events := es }

/-- `s` idle again: the response `r` emitted after the events `h`, the filter registers holding `f`, the outside agents `ws` and
`es`. -/
def finished (r : Response) (h : List TxnEvent) (f : Sample) (ws : List Word) (es : List Event) (s : State) : State :=
  { s with
    seq := .idle, cmdLatch := 0#32, outTxn := none, busAns := none, history := h, failLatch := 0#3, dataLatch0 := 0#32,
    dataLatch1 := 0#32, dataLatch2 := 0#32, filtX := f.x, filtY := f.y, filtZ := f.z,
    responses := r :: s.responses, hostWords := ws, events := es }

/-- The accept step of a command that is not refused (R101, R103). -/
theorem step_offered {w : Word} {ds : List Draw} {ws : List Word} {es : List Event} {s : State} {i : Instr}
    (ho : Offered w ds ws es s) (hd : decode w = .cmd i) (hc : i.isConfigure = true ∨ s.configured = true) :
    step s = .next (inProgress (if i = .selfTest then .stEnter else .xfer) w (firstTxn Config.params i s) s.history 0#3
      ⟨0#32, 0#32, 0#32⟩ s.filt ws (ds.map .answer ++ es) s) :=
  step_of_case (.issued _ w ws i ho.events ho.idle ho.words hd hc)

/-- The accept step of a refused or illegal word leaves the idle state as it was, but for the response (R103). -/
theorem step_offered_refused {w : Word} {ds : List Draw} {ws : List Word} {es : List Event} {s : State} {i : Instr}
    (ho : Offered w ds ws es s) (hd : decode w = .cmd i) (hi : i.isConfigure = false) (hc : s.configured = false) :
    step s = .next (finished (responseOf .notConfigured 0#3 0#32 0#32 0#32) s.history s.filt ws (ds.map .answer ++ es) s) :=
  step_of_case (.unconfigured _ w ws i ho.events ho.idle ho.words hd hi hc)

theorem step_offered_illegal {w : Word} {ds : List Draw} {ws : List Word} {es : List Event} {s : State} {why : Illegal}
    (ho : Offered w ds ws es s) (hd : decode w = .illegal why) :
    step s = .next (finished (responseOf .illegalCommand 0#3 0#32 0#32 0#32) s.history s.filt ws (ds.map .answer ++ es) s) :=
  step_of_case (.illegalWord _ w ws why ho.events ho.idle ho.words hd)

/-- A state that is idle and meets the invariant is what a completion without a filter update leaves, but for the response, the
history and the outside agents. -/
theorem finished_idle {s : State} (hi : Inv s) (hs : s.seq = .idle) (r : Response) (h : List TxnEvent) (ws : List Word)
    (es : List Event) :
    finished r h s.filt ws es s =
      { s with history := h, responses := r :: s.responses, hostWords := ws, events := es } := by
  obtain ⟨h1, h2, h3, h4, h5, h6, h7⟩ := idle_latches hi hs
  simp only [finished, State.filt, hs, h1, h2, h3, h4, h5, h6, h7]

/-- The answer step of a one-transaction command ends it as the command rule's pseudocode does (R106, R221). -/
theorem step_xfer {w : Word} {h : List TxnEvent} {ws : List Word} {es : List Event} {s : State} {i : Instr} {d : Draw}
    {rest : List Draw} {r : BigResult} (hd : decode w = .cmd i) (hi : i ≠ .selfTest)
    (hr : bigCommand Config.params i (d :: rest) s = some r) :
    step (inProgress .xfer w (firstTxn Config.params i s) h 0#3 ⟨0#32, 0#32, 0#32⟩ s.filt ws (.answer d :: es) s) =
      .next (finished r.rsp (r.txns ++ h) r.state.filt ws es r.state) := by
  have none_set : (0#3 ||| failMain) = failMain := by decide
  cases d with
  | fail =>
    have hs := step_of_case (.failed
      (s := inProgress .xfer w (firstTxn Config.params i s) h 0#3 ⟨0#32, 0#32, 0#32⟩ s.filt ws (.answer .fail :: es) s)
      es _ i rfl rfl rfl hd hi)
    rw [hs]
    cases i <;> first
      | exact absurd rfl hi
      | (cases hr
         simp only [failCommand, setFlag, complete, answering, takeAnswer, inProgress, none_set]
         rfl)
  | ok b =>
    have hs := step_of_case (.done
      (s := inProgress .xfer w (firstTxn Config.params i s) h 0#3 ⟨0#32, 0#32, 0#32⟩ s.filt ws (.answer (.ok b) :: es) s)
      es _ i b rfl rfl rfl hd hi)
    rw [hs]
    cases i <;> first
      | exact absurd rfl hi
      | (cases hr
         rfl)

section SelfTest

variable {w : Word} {x : Txn} {h : List TxnEvent} {fl : BitVec 3} {d f : Sample} {ws : List Word} {es : List Event} {s : State}

/-- R161, `ST_ENTER`, answer `Ok`. -/
theorem step_enter_ok (b : Six) (hd : decode w = .cmd .selfTest) :
    step (inProgress .stEnter w x h fl d f ws (.answer (.ok b) :: es) s) =
      .next (inProgress .stCapture w (dataTxn Config.params s) (⟨x, some (answerTo x (.ok b))⟩ :: h) fl d f ws es s) :=
  step_of_case (.enterOk (s := inProgress .stEnter w x h fl d f ws (.answer (.ok b) :: es) s) es x b rfl rfl rfl hd)

/-- R161, `ST_ENTER`, answer `Fail`. -/
theorem step_enter_fail (hd : decode w = .cmd .selfTest) :
    step (inProgress .stEnter w x h fl d f ws (.answer .fail :: es) s) =
      .next (inProgress .stRestore w (restoreTxn Config.params s) (⟨x, some (answerTo x .fail)⟩ :: h) (fl ||| failMain) d f
        ws es s) :=
  step_of_case (.enterFail (s := inProgress .stEnter w x h fl d f ws (.answer .fail :: es) s) es x rfl rfl rfl hd)

/-- R161, `ST_CAPTURE`, answer `Ok`: the captured values go to the filter registers and the data latches. -/
theorem step_capture_ok (b : Six) (hd : decode w = .cmd .selfTest) :
    step (inProgress .stCapture w x h fl d s.filt ws (.answer (.ok b) :: es) s) =
      .next (inProgress .stRestore w (restoreTxn Config.params s) (⟨x, some (answerTo x (.ok b))⟩ :: h) fl
        (captured Config.params b s) (captured Config.params b s) ws es s) :=
  step_of_case (.captureOk (s := inProgress .stCapture w x h fl d s.filt ws (.answer (.ok b) :: es) s) es x b rfl rfl rfl hd)

/-- R161, `ST_CAPTURE`, answer `Fail`. -/
theorem step_capture_fail (hd : decode w = .cmd .selfTest) :
    step (inProgress .stCapture w x h fl d f ws (.answer .fail :: es) s) =
      .next (inProgress .stRestore w (restoreTxn Config.params s) (⟨x, some (answerTo x .fail)⟩ :: h) (fl ||| failCapture) d f
        ws es s) :=
  step_of_case (.captureFail (s := inProgress .stCapture w x h fl d f ws (.answer .fail :: es) s) es x rfl rfl rfl hd)

/-- R161, `ST_RESTORE`, answer `Ok`. -/
theorem step_restore_ok (b : Six) (hd : decode w = .cmd .selfTest) :
    step (inProgress .stRestore w x h fl d f ws (.answer (.ok b) :: es) s) =
      .next (finished (responseOf (codeOf fl) fl d.x d.y d.z) (⟨x, some (answerTo x (.ok b))⟩ :: h) f ws es s) :=
  step_of_case (.restoreOk (s := inProgress .stRestore w x h fl d f ws (.answer (.ok b) :: es) s) es x b rfl rfl rfl hd)

/-- R161, `ST_RESTORE`, answer `Fail`. -/
theorem step_restore_fail (hd : decode w = .cmd .selfTest) :
    step (inProgress .stRestore w x h fl d f ws (.answer .fail :: es) s) =
      .next (finished (responseOf (codeOf (fl ||| failRestore)) (fl ||| failRestore) d.x d.y d.z)
        (⟨x, some (answerTo x .fail)⟩ :: h) f ws es s) :=
  step_of_case (.restoreFail (s := inProgress .stRestore w x h fl d f ws (.answer .fail :: es) s) es x rfl rfl rfl hd)

end SelfTest

end Sys2Proof.Machine
end

