-- ==== Sys2Proof/Laws/Session.lean ====
section
/-! SUPPORT. What an exchange of a session is, and what the host obligations say of one exchange. -/

namespace Sys2Proof.Machine

@[simp] theorem session_nil (p : Params) (s : State) : session p s [] = some ⟨s, []⟩ := rfl

/-- A session's first exchange is one big step, and the rest is a session from its state. -/
theorem session_cons {p : Params} {s : State} {w : Word} {ds : List Draw} {rest : List (Word × List Draw)} {q : Session} :
    session p s ((w, ds) :: rest) = some q ↔
      ∃ r q', bigStep p w ds s = some r ∧ session p r.state rest = some q' ∧
        q = ⟨q'.state, ⟨w, r.rsp, r.txns⟩ :: q'.exchanges⟩ := by
  simp only [session]
  cases bigStep p w ds s with
  | none => simp
  | some r => simp [eq_comm]

/-- Every exchange of a session is a big step from some state. -/
theorem session_exchange {p : Params} {x : Exchange} : ∀ {cmds : List (Word × List Draw)} {s : State} {q : Session},
    session p s cmds = some q → x ∈ q.exchanges →
      ∃ s' ds r, bigStep p x.word ds s' = some r ∧ x.response = r.rsp ∧ x.txns = r.txns
  | [], s, q, h, hx => by
    cases h
    simp at hx
  | (w, ds) :: rest, s, q, h, hx => by
    obtain ⟨r, q', hr, hq, rfl⟩ := session_cons.mp h
    rcases List.mem_cons.mp hx with rfl | hx
    · exact ⟨s, ds, r, hr, rfl, rfl⟩
    · exact session_exchange hq hx

/-- What `precededBy` says of one late exchange. -/
theorem precededBy_at {first late : Exchange → Bool} {e : Exchange} {post : List Exchange} (he : late e = true) :
    ∀ {pre : List Exchange} {seen : Bool}, precededBy first late seen (pre ++ e :: post) = true →
      seen = true ∨ ∃ x, x ∈ pre ∧ first x = true
  | [], seen, h => by
    simp only [List.nil_append, precededBy, he, Bool.not_true, Bool.or_false, Bool.and_eq_true] at h
    exact .inl h.1
  | x :: pre, seen, h => by
    simp only [List.cons_append, precededBy, Bool.and_eq_true] at h
    rcases precededBy_at he h.2 with hs | ⟨y, hy, hf⟩
    · rcases Bool.or_eq_true _ _ |>.mp hs with hs | hs
      · exact .inl hs
      · exact .inr ⟨x, List.mem_cons_self, hs⟩
    · exact .inr ⟨y, List.mem_cons_of_mem _ hy, hf⟩

/-- The boot sequence keeps the obligation of R254. -/
theorem powerOnFirst_of_bootOrder {xs : List Exchange} (h : bootOrder xs = true) : powerOnFirst xs = true := by
  simp only [bootOrder, Bool.and_eq_true] at h
  have key : ∀ (xs : List Exchange) (seen : Bool),
      precededBy (Exchange.completed Instr.isPowerOn) (Exchange.asks Instr.followsPowerOn) seen xs = true →
      precededBy (Exchange.completed Instr.isPowerOn) (Exchange.asks Instr.isAcquisition) seen xs = true := by
    intro xs
    induction xs with
    | nil => exact fun _ _ => rfl
    | cons e es ih =>
      intro seen h
      simp only [precededBy, Bool.and_eq_true, Bool.or_eq_true, Bool.not_eq_true'] at h ⊢
      refine ⟨h.1.imp_right fun hf => ?_, ih _ h.2⟩
      unfold Exchange.asks at hf ⊢
      split
      · rename_i i hd
        rw [hd] at hf
        cases i <;> first | rfl | exact absurd hf (by simp [Instr.followsPowerOn])
      · rfl
  exact key xs false h.2

end Sys2Proof.Machine
end

