-- ==== Sys2Proof/Tests/Slice0.lean ====
section
/-! SUPPORT. Tests with values from the spec's own vectors (95_test_vectors.md, named in each comment), and a witness for the
hypotheses of every statement that has some. -/

open Sys2Proof Sys2Proof.Machine

namespace Sys2Proof.Tests

-- ## WellFormed (R5)

/-- R5: ALPHA_NUM = 0 is refused. -/
theorem test_params_zero_alpha_refused : ({ Config.params with alphaNum := 0 } : Params).wf = false := by decide

/-- R5: ALPHA_NUM > ALPHA_DEN is refused, and no instance starts. -/
theorem test_params_big_alpha_refused :
    ({ Config.params with alphaNum := 6 } : Params).wf = false ∧
    (instantiate { Config.params with alphaNum := 6 }).isSome = false := by decide

/-- R5, R6: the hardware's set and the simpler variant's are well-formed. -/
theorem test_params_accepted : Config.params.wf = true ∧ (Config.simplerVariant Config.params).wf = true := by decide

-- ## Decode (V1: the words are the table's, the decodings its second column)

theorem test_decode_configure : decode 0x10000003#32 = .cmd (.configure 3#2 0#1) := by decide
theorem test_decode_configure_high : decode 0x10000004#32 = .cmd (.configure 0#2 1#1) := by decide
theorem test_decode_power_on : decode 0x20000000#32 = .cmd .powerOn := by decide
theorem test_decode_read_accel : decode 0x30000000#32 = .cmd .readAccel := by decide
theorem test_decode_self_test : decode 0x40000000#32 = .cmd .selfTest := by decide
theorem test_decode_read_offset : decode 0x50000000#32 = .cmd .readOffset := by decide
theorem test_decode_write_offset : decode 0x608002FF#32 = .cmd (.writeOffset 0xFF#8 0x02#8 0x80#8) := by decide
theorem test_decode_read_devid : decode 0x70000000#32 = .cmd .readDevid := by decide
theorem test_decode_mbz : decode 0x10000008#32 = .illegal .mbzNotZero := by decide
theorem test_decode_rsv : decode 0x11000000#32 = .illegal .reservedField ∧ decode 0x6F000000#32 = .illegal .reservedField := by
  decide
theorem test_decode_operand :
    decode 0x20000001#32 = .illegal .operandNotZero ∧ decode 0x30800000#32 = .illegal .operandNotZero := by decide
theorem test_decode_reserved_opcode :
    decode 0x00000000#32 = .illegal .reservedOpcode ∧ decode 0x80000000#32 = .illegal .reservedOpcode ∧
    decode 0xF0000000#32 = .illegal .reservedOpcode := by decide
theorem test_decode_table_word : decodeTableWord 32 0x60FFFFFF = some (.writeOffset 0xFF#8 0xFF#8 0xFF#8) := by decide

/-- R91's own examples. -/
theorem test_assemble_examples :
    assembleText "CONFIGURE 16g, 0" = some 0x10000003#32 ∧ assembleText "WRITE_OFFSET -1, 2, 0x80" = some 0x608002FF#32 := by
  decide
/-- P3's `.word` line with a comment; an operand out of range, an unknown word and a comment line give no word (R91). -/
theorem test_assemble_word_and_refusals :
    assembleText ".word 0x00000000        ; illegal" = some 0#32 ∧ assembleText "WRITE_OFFSET 128, 0, 0" = none ∧
    assembleText "NOP" = none ∧ asmParse "; text".toList = .blank := by decide

-- ## The datapath

/-- V4: 0x8000 and 0xFFFF at 16g, 0x7FFF at 2g, signed; 0xFFFF at 2g unsigned (E5). -/
theorem test_scale_vectors :
    convertAxis Config.params 3#2 0x00#8 0x80#8 = BitVec.ofInt 32 (-67108864) ∧
    convertAxis Config.params 3#2 0xFF#8 0xFF#8 = BitVec.ofInt 32 (-2048) ∧
    convertAxis Config.params 0#2 0xFF#8 0x7F#8 = BitVec.ofInt 32 8388352 ∧
    convertAxis (Config.legacyUnsigned Config.params) 0#2 0xFF#8 0xFF#8 = BitVec.ofInt 32 16776960 := by decide

/-- E10: the pairing of the data bytes. -/
theorem test_byte_pairing :
    raw16 0x34#8 0x12#8 = 0x1234#16 ∧ channelValue Config.params (raw16 0xBC#8 0x9A#8) = -25924 := by decide

/-- V5: rounding of negatives, and the extreme inputs. -/
theorem test_filter_vectors :
    filter Config.params 0#32 (BitVec.ofInt 32 (-256)) = BitVec.ofInt 32 (-52) ∧
    filter Config.params 0#32 (BitVec.ofInt 32 (-1)) = BitVec.ofInt 32 (-1) ∧
    filter Config.params (BitVec.ofInt 32 (-67108864)) (BitVec.ofInt 32 67106816) = BitVec.ofInt 32 (-40265728) ∧
    filter Config.params (BitVec.ofInt 32 67106816) (BitVec.ofInt 32 (-67108864)) = BitVec.ofInt 32 40263680 ∧
    filter (Config.simplerVariant Config.params) 12345#32 (BitVec.ofInt 32 (-777)) = BitVec.ofInt 32 (-777) := by decide

/-- E4: the tenth step at 1 g. -/
theorem test_filter_ten_steps : filterRun Config.params 65536#32 0#32 10 = 58498#32 := by decide

-- ## One micro-step of each command

/-- Six bytes for the tests. -/
def six (b0 b1 b2 b3 b4 b5 : Byte) : Six := ⟨b0, b1, b2, b3, b4, b5⟩

/-- A configured engine at a range, with filter values, in a phase, with an answer on the port. -/
def mid (range : BitVec 2) (f : Sample) (ph : Phase) (d : Draw) : State :=
  { State.reset with configured := true, cfgRange := range, filtX := f.x, filtY := f.y, filtZ := f.z, seq := ph,
                     busAns := some d }

/-- What a result says of the responses. -/
def responsesOf (r : Result) : List Response :=
  match r with
  | .next t => t.responses
  | _ => []

/-- What a result says of the filter. -/
def filtOf (r : Result) : Option Sample :=
  match r with
  | .next t => some t.filt
  | _ => none

def zeros : Sample := ⟨0#32, 0#32, 0#32⟩

/-- V6, third row: 2g, FILT (13107, 0, -13108). -/
theorem test_read_accel_second_sample :
    responsesOf (exec .readAccel (mid 0#2 ⟨13107#32, 0#32, BitVec.ofInt 32 (-13108)⟩ .xfer (.ok (six 0 1 0 0 0 0xFF)))) =
      [⟨0x00#8, 0x00005C28#32, 0x00000000#32, 0xFFFFA3D6#32⟩] := by decide

/-- V6, fourth row: a failed read changes no filter lane and sends no data. -/
theorem test_read_accel_fail :
    responsesOf (exec .readAccel (mid 0#2 ⟨13107#32, 0#32, 5#32⟩ .xfer .fail)) = [⟨0x11#8, 0#32, 0#32, 0#32⟩] ∧
    filtOf (exec .readAccel (mid 0#2 ⟨13107#32, 0#32, 5#32⟩ .xfer .fail)) = some ⟨13107#32, 0#32, 5#32⟩ := by decide

/-- V6, last data row: 8g with `RAW_SIGNED = false`. -/
theorem test_read_accel_unsigned_variant :
    responsesOf (commandWith (Config.legacyUnsigned Config.params) .readAccel
      (mid 2#2 zeros .xfer (.ok (six 0xFF 0xFF 0x00 0x80 0xFF 0x7F)))) =
      [⟨0x00#8, 0x00CCCC00#32, 0x00666666#32, 0x00666599#32⟩] := by decide

/-- V7: the capture row at 16g. -/
theorem test_self_test_capture :
    filtOf (exec .selfTest (mid 3#2 zeros .stCapture (.ok (six 0x40 0x00 0xC0 0xFF 0x00 0x01)))) =
      some ⟨0x00006666#32, 0xFFFF9999#32, 0x00019999#32⟩ := by decide

/-- V7: capture and restore failed. -/
theorem test_self_test_compound_failure :
    responsesOf (exec .selfTest { mid 3#2 zeros .stRestore .fail with failLatch := 2#3, dataLatch0 := 7#32 }) =
      [⟨0x61#8, 0#32, 0#32, 0#32⟩] := by decide

/-- V8: the second READ_OFFSET row. -/
theorem test_read_offset :
    responsesOf (exec .readOffset (mid 3#2 zeros .xfer (.ok (six 0x7F 0x80 0xFF 9 9 9)))) =
      [⟨0x00#8, 0x0000007F#32, 0xFFFFFF80#32, 0xFFFFFFFF#32⟩] := by decide

/-- V9: zero-extended, not sign-extended. -/
theorem test_read_devid :
    responsesOf (exec .readDevid (mid 3#2 zeros .xfer (.ok (six 0xFF 9 9 9 9 9)))) = [⟨0x00#8, 0x000000FF#32, 0#32, 0#32⟩] := by
  decide

/-- V8: the first WRITE_OFFSET row's transaction. -/
theorem test_write_offset_bytes :
    writeOffsetTxn Config.params 0xFF#8 0x02#8 0x80#8 State.reset =
      .write Config.addrLow [0x1E#8, 0xFF#8, 0x02#8, 0x80#8] := rfl

/-- V3: POWER_ON to the high address. -/
theorem test_power_on_bytes :
    powerOnTxn Config.params { State.reset with cfgAsel := 1#1 } = .write Config.addrHigh [0x2D#8, 0x08#8] := rfl

/-- V2: from (range 2, FILT (7, 8, 9)), a failed CONFIGURE leaves the filter, a successful one zeroes it. -/
theorem test_configure_fail_and_ok :
    filtOf (exec (.configure 1#2 1#1) (mid 2#2 ⟨7#32, 8#32, 9#32⟩ .xfer .fail)) = some ⟨7#32, 8#32, 9#32⟩ ∧
    filtOf (exec (.configure 1#2 1#1) (mid 2#2 ⟨7#32, 8#32, 9#32⟩ .xfer (.ok (six 0 0 0 0 0 0)))) = some zeros := by decide

/-- V10: an illegal word before configuration is ILLEGAL_COMMAND; READ_ACCEL there is NOT_CONFIGURED; through the fetch. -/
theorem test_refusals_from_reset :
    responsesOf (step (State.reset.withFetchWord 32 0x30800000)) = [⟨0x02#8, 0#32, 0#32, 0#32⟩] ∧
    responsesOf (step (State.reset.withFetchWord 32 0x30000000)) = [⟨0x03#8, 0#32, 0#32, 0#32⟩] := by decide

/-- V10: CONFIGURE from reset issues its write. -/
theorem test_configure_from_reset :
    step (State.reset.withFetchWord 32 0x10000003) = .next { State.reset with
      seq := .xfer, cmdLatch := 0x10000003#32, outTxn := some (.write Config.addrLow [0x31#8, 0x03#8]),
      history := [⟨.write Config.addrLow [0x31#8, 0x03#8], none⟩] } := rfl

/-- R57: the store of the reference sensor after a WRITE_OFFSET, in its canonical form. -/
theorem test_sensor_store :
    Memory.writeBytes [] 0x1E [0xFF#8, 0x00#8, 0x80#8] = [(0x1E, 0xFF#8), (0x20, 0x80#8)] ∧
    Memory.wf [(0x1E, 0xFF#8), (0x20, 0x80#8)] = true ∧ Memory.wf [(0x20, 0x80#8), (0x1E, 0xFF#8)] = false := by decide

/-- R53, R54: a transaction without a data byte is ill-formed. -/
theorem test_txn_wf :
    Txn.wf (.write 0#7 [0x31#8]) = false ∧ Txn.wf (.read 0#7 0x32#8 0) = false ∧ Txn.wf (.read 0#7 0x32#8 6) = true := by decide

-- ## Witnesses: concrete states and operands that meet the hypotheses of the statements

/-- An idle, configured engine at 2g; the host holds `w`, the environment will answer `ds`. -/
def ready (w : Word) (ds : List Draw) : State :=
  { State.reset with configured := true, cfgRange := 0#2, hostWords := [w], events := .present :: (ds.map .answer ++ []) }

/-- The same, not configured. -/
def unready (w : Word) (ds : List Draw) : State :=
  { State.reset with hostWords := [w], events := .present :: (ds.map .answer ++ []) }

theorem zero_bound : filterBound 0#32 := by simp [filterBound]

theorem ready_inv (w : Word) (ds : List Draw) : Inv (ready w ds) := by
  constructor <;> first | exact zero_bound | simp [ready, State.reset, State.resetOf, phaseInv, latchesFresh, dataClear]

theorem unready_inv (w : Word) (ds : List Draw) : Inv (unready w ds) := by
  constructor <;> first | exact zero_bound | simp [unready, State.reset, State.resetOf, phaseInv, latchesFresh, dataClear]

theorem ready_offered (w : Word) (ds : List Draw) : Offered w ds [] [] (ready w ds) := ⟨ready_inv w ds, rfl, rfl, rfl⟩

theorem unready_offered (w : Word) (ds : List Draw) : Offered w ds [] [] (unready w ds) := ⟨unready_inv w ds, rfl, rfl, rfl⟩

/-- POWER_ON's write outstanding, and the events to come. -/
def busy (es : List Event) : State :=
  waitingFor .xfer (powerOnTxn Config.params State.reset)
    { State.reset with configured := true, cmdLatch := 0x20000000#32, events := es }

theorem busy_inv (es : List Event) : Inv (busy es) := by
  constructor
  case phase =>
    refine ⟨⟨rfl, rfl, rfl, rfl⟩, .powerOn, test_decode_power_on, by simp, .inr rfl, rfl, rfl⟩
  all_goals first | exact zero_bound | simp [busy, waitingFor, State.reset, State.resetOf]

/-- SELF_TEST's enter write outstanding. -/
def entering (es : List Event) : State :=
  waitingFor .stEnter (enterTxn Config.params State.reset)
    { State.reset with configured := true, cmdLatch := 0x40000000#32, events := es }

theorem entering_inv (es : List Event) : Inv (entering es) := by
  constructor
  case phase => exact ⟨⟨test_decode_self_test, rfl, rfl, rfl⟩, rfl, rfl, rfl, rfl⟩
  all_goals first | exact zero_bound | simp [entering, waitingFor, State.reset, State.resetOf]

def someBytes : Six := six 1 2 3 4 5 6

/-- The answer step of `busy`. -/
theorem busy_step : ∃ t, step (busy [.answer (.ok someBytes)]) = .next t ∧ t.seq = .idle := by
  refine ⟨_, step_of_case (.done [] _ .powerOn someBytes rfl rfl rfl (by decide) (by simp)), rfl⟩

theorem witness_EachCommandHasOneWord : ∃ (w : Word) (i : Instr), decode w = .cmd i := ⟨_, _, test_decode_write_offset⟩
theorem witness_AtMostOneRowMatches : ∃ (w : Word) (r r' : Row), r ∈ opcodeMap ∧ r' ∈ opcodeMap ∧ r.selects w = true ∧
    r'.selects w = true :=
  ⟨0x10000007#32, Instr.row (.configure 0#2 0#1), Instr.row (.configure 0#2 0#1), by decide⟩
/-- A mixed line (V8, first row). -/
theorem witness_AssemblerOffsetOperands : assemble (.writeOffset (.dec (-1)) (.dec 2) (.hex 0x80)) = some 0x608002FF#32 := by
  decide
theorem witness_AcceptStepRunsDecodedCommand : ∃ (s : State) (w : Word) (ws : List Word) (es : List Event) (i : Instr),
    s.seq = .idle ∧ s.hostWords = w :: ws ∧ s.events = .present :: es ∧ decode w = .cmd i :=
  ⟨ready 0x30000000#32 [], _, _, _, .readAccel, rfl, rfl, rfl, by decide⟩
theorem witness_AnswerStepRunsLatchedCommand : ∃ (s : State) (x : Txn) (d : Draw) (es : List Event) (i : Instr)
    (h : List TxnEvent), s.seq ≠ .idle ∧ s.outTxn = some x ∧ s.history = ⟨x, none⟩ :: h ∧ s.events = .answer d :: es ∧
    decode s.cmdLatch = .cmd i :=
  ⟨busy [.answer .fail], _, _, _, .powerOn, _, by decide, rfl, rfl, rfl, by decide⟩
theorem witness_BusyPortAcceptsNoWord : ∃ (s : State) (es : List Event), s.seq ≠ .idle ∧ s.events = .present :: es :=
  ⟨busy [.present], _, by decide, rfl⟩
theorem witness_IllegalWordsAreRefused : ∃ (s : State) (w : Word) (ws : List Word) (es : List Event) (why : Illegal),
    Offered w [] ws es s ∧ decode w = .illegal why :=
  ⟨_, 0x11000000#32, _, _, _, unready_offered _ _, test_decode_rsv.1⟩
theorem witness_UnconfiguredCommandIsRefused : ∃ (s : State) (w : Word) (ws : List Word) (es : List Event) (i : Instr),
    Offered w [] ws es s ∧ s.configured = false ∧ decode w = .cmd i ∧ i.isConfigure = false :=
  ⟨_, 0x40000000#32, _, _, .selfTest, unready_offered _ _, rfl, by decide, rfl⟩
/-- For the statements whose hypotheses are the invariant and a step that goes on. -/
theorem witness_InvariantAndStep : ∃ s t : State, Inv s ∧ step s = .next t :=
  ⟨_, _, busy_inv [.answer (.ok someBytes)], busy_step.choose_spec.1⟩
theorem witness_MicroStepIssuesAndEmitsAtMostOne : ∃ s t : State, Inv s ∧ step s = .next t := witness_InvariantAndStep
theorem witness_MicroStepIssuesOrCompletes :
    (∃ s t : State, Inv s ∧ step s = .next t ∧ (∃ es, s.events = .present :: es) ∧ s.seq = .idle ∧ s.hostWords ≠ []) ∧
    (∃ s t : State, Inv s ∧ step s = .next t ∧ (∃ d es, s.events = .answer d :: es) ∧ s.outTxn ≠ none) :=
  ⟨⟨_, _, ready_inv 0x20000000#32 [], step_of_case (.issued _ _ _ .powerOn rfl rfl rfl (by decide) (.inr rfl)), ⟨_, rfl⟩, rfl,
    by simp [ready]⟩,
   ⟨_, _, busy_inv [.answer (.ok someBytes)], busy_step.choose_spec.1, ⟨_, _, rfl⟩, by simp [busy, waitingFor]⟩⟩
theorem witness_TransactionsAreTotallyOrdered : ∃ (s t : State) (x : Txn), Inv s ∧ step s = .next t ∧ txnsOf t = x :: txnsOf s :=
  ⟨_, _, _, ready_inv 0x20000000#32 [], step_of_case (.issued _ _ _ .powerOn rfl rfl rfl (by decide) (.inr rfl)), rfl⟩
theorem witness_EmittedResponsesAreLegal : ∃ s t : State, (∀ r, r ∈ s.responses → r.legal) ∧ step s = .next t :=
  ⟨busy [.answer (.ok someBytes)], _, by simp [busy, waitingFor, State.reset, State.resetOf], busy_step.choose_spec.1⟩
theorem witness_CaptureAndRestoreFlagsOnlyFromSelfTest : ∃ (s t : State) (r : Response), Inv s ∧ step s = .next t ∧
    t.responses = r :: s.responses ∧ decode s.cmdLatch ≠ .cmd .selfTest :=
  ⟨_, _, _, busy_inv [.answer (.ok someBytes)],
    step_of_case (.done [] _ .powerOn someBytes rfl rfl rfl (by decide) (by simp)), rfl, by decide⟩
theorem witness_OnlyListedTransactionsAreIssued : ∃ s t : State, Inv s ∧
    (∀ e, e ∈ s.history → e.txn.listed Config.params) ∧ step s = .next t :=
  ⟨ready 0x20000000#32 [], _, ready_inv _ _, by simp [ready, State.reset, State.resetOf],
    step_of_case (.issued _ _ _ .powerOn rfl rfl rfl (by decide) (.inr rfl))⟩
theorem witness_EveryCommandCompletesInFourMicroSteps : ∃ (s : State) (w : Word) (d1 d2 d3 : Draw) (ws : List Word)
    (es : List Event), Offered w [d1, d2, d3] ws es s ∧ decode w ≠ .cmd .selfTest :=
  ⟨_, 0x30000000#32, .fail, .fail, .fail, _, _, ready_offered _ _, by decide⟩
theorem witness_BigStepAgreesWithMicroSteps :
    (∃ (s : State) (w : Word) (ds : List Draw), Offered w ds [] [] s ∧ (bigStep Config.params w ds s).isSome = true) ∧
    (∃ (s : State) (w : Word) (ds : List Draw), Offered w ds [] [] s ∧ (bigStep Config.params w ds s).isSome = false) :=
  ⟨⟨_, 0x40000000#32, [.ok someBytes, .fail, .fail], ready_offered _ _, rfl⟩,
   ⟨_, 0x40000000#32, [.ok someBytes], ready_offered _ _, rfl⟩⟩
theorem witness_StopsExactlyWhenNoEventComes : (∃ s : State, Inv s ∧ s.events = []) ∧ (∃ s : State, Inv s ∧ s.events ≠ []) :=
  ⟨⟨_, busy_inv [], rfl⟩, ⟨_, ready_inv 0#32 [], by simp [ready]⟩⟩
theorem witness_OnlyAnswerOrResetLeavesAPhase : ∃ s t : State, Inv s ∧ s.seq ≠ .idle ∧ step s = .next t ∧
    (∀ d es, s.events ≠ .answer d :: es) ∧ (∀ es, s.events ≠ .reset :: es) :=
  ⟨_, _, busy_inv [.present], by decide, step_of_case (.notAccepted [] rfl (.inl (by decide))), by simp [busy, waitingFor],
    by simp [busy, waitingFor]⟩
theorem witness_EveryStepKeepsInvariant : ∃ s t : State, Inv s ∧ step s = .next t := witness_InvariantAndStep
theorem witness_OutTxnExactlyWhenBusy : ∃ (s : State) (x : Txn), Reachable s ∧ s.outTxn = some x :=
  ⟨_, _, .step _ _ (.boot [0x10000003#32] [.present])
    (step_of_case (.issued _ _ _ (.configure 3#2 0#1) rfl rfl rfl (by decide) (.inl rfl))), rfl⟩
theorem witness_OnlyConfigureOkAndResetWriteConfiguration : ∃ s t : State, step s = .next t ∧ t.configured ≠ s.configured :=
  ⟨busy [.reset], _, step_of_case (.reset [] rfl), by simp [busy, waitingFor]⟩
theorem witness_OnlyThreeEventsWriteTheFilter : ∃ s t : State, step s = .next t :=
  ⟨busy [.reset], _, step_of_case (.reset [] rfl)⟩
theorem witness_UnconfiguredValuesAreUnobservable : ∃ s t : State, Inv s ∧ s.configured = false ∧ step s = .next t :=
  ⟨_, _, unready_inv 0x10000000#32 [], rfl,
    step_of_case (.issued _ _ _ (.configure 0#2 0#1) rfl rfl rfl (by decide) (.inl rfl))⟩
theorem witness_UnconfiguredClause : ∃ s : State, s.seq = .idle ∧ s.configured = false := ⟨State.reset, rfl, rfl⟩
/-- For the clauses of a one-transaction command on a configured engine: issue, `Ok`, `Fail`. -/
theorem witness_ThreeClauses : (∃ s : State, s.seq = .idle ∧ s.configured = true) ∧
    (∃ (s : State) (b : Six), s.seq = .xfer ∧ s.busAns = some (.ok b)) ∧
    (∃ s : State, s.seq = .xfer ∧ s.busAns = some .fail ∧ s.failLatch = 0#3) :=
  ⟨⟨ready 0#32 [], rfl, rfl⟩, ⟨mid 0#2 zeros .xfer (.ok someBytes), someBytes, rfl, rfl⟩,
    ⟨mid 0#2 zeros .xfer .fail, rfl, rfl, rfl⟩⟩
theorem witness_ConfigureEffect : (∃ s : State, s.seq = .idle) ∧ (∃ (s : State) (b : Six), s.seq = .xfer ∧ s.busAns = some (.ok b)) ∧
    (∃ s : State, s.seq = .xfer ∧ s.busAns = some .fail ∧ s.failLatch = 0#3) :=
  ⟨⟨State.reset, rfl⟩, witness_ThreeClauses.2⟩
theorem witness_ConfigureIsIdempotent : ∃ (s t t' : State) (range : BitVec 2) (asel : BitVec 1) (b b' : Six) (ws : List Word)
    (es : List Event), Offered (encode (.configure range asel)) [.ok b] (encode (.configure range asel) :: ws)
      (.present :: .answer (.ok b') :: es) s ∧ runSteps 2 s = .next t ∧ runSteps 4 s = .next t' :=
  ⟨{ State.reset with hostWords := [0x10000003#32, 0x10000003#32],
                      events := [.present, .answer (.ok someBytes), .present, .answer (.ok someBytes)] },
    _, _, 3#2, 0#1, someBytes, someBytes, [], [],
    ⟨by constructor <;> first | exact zero_bound | simp [State.reset, State.resetOf, phaseInv, latchesFresh, dataClear],
      rfl, rfl, rfl⟩, rfl, rfl⟩
theorem witness_PowerOnEffect : (∃ s : State, s.seq = .idle ∧ s.configured = true) ∧
    (∃ (s : State) (b : Six), s.seq = .xfer ∧ s.busAns = some (.ok b)) ∧
    (∃ s : State, s.seq = .xfer ∧ s.busAns = some .fail ∧ s.failLatch = 0#3) := witness_ThreeClauses
theorem witness_ReadAccelEffect : (∃ s : State, s.seq = .idle ∧ s.configured = true) ∧
    (∃ (s : State) (b : Six) (f : Sample), s.seq = .xfer ∧ s.busAns = some (.ok b) ∧ f = captured Config.params b s) ∧
    (∃ s : State, s.seq = .xfer ∧ s.busAns = some .fail ∧ s.failLatch = 0#3) :=
  ⟨witness_ThreeClauses.1, ⟨mid 0#2 zeros .xfer (.ok someBytes), someBytes, _, rfl, rfl, rfl⟩, witness_ThreeClauses.2.2⟩
theorem witness_ReadOffsetEffect : (∃ s : State, s.seq = .idle ∧ s.configured = true) ∧
    (∃ (s : State) (b : Six), s.seq = .xfer ∧ s.busAns = some (.ok b)) ∧
    (∃ s : State, s.seq = .xfer ∧ s.busAns = some .fail ∧ s.failLatch = 0#3) := witness_ThreeClauses
theorem witness_WriteOffsetEffect : (∃ s : State, s.seq = .idle ∧ s.configured = true) ∧
    (∃ (s : State) (b : Six), s.seq = .xfer ∧ s.busAns = some (.ok b)) ∧
    (∃ s : State, s.seq = .xfer ∧ s.busAns = some .fail ∧ s.failLatch = 0#3) := witness_ThreeClauses
theorem witness_ReadDevidEffect : (∃ s : State, s.seq = .idle ∧ s.configured = true) ∧
    (∃ (s : State) (b : Six), s.seq = .xfer ∧ s.busAns = some (.ok b)) ∧
    (∃ s : State, s.seq = .xfer ∧ s.busAns = some .fail ∧ s.failLatch = 0#3) := witness_ThreeClauses
theorem witness_LanesAreIndependent : ∃ (b b' : Six) (s s' : State), s.cfgRange = s'.cfgRange ∧
    ((b.b0 = b'.b0 ∧ b.b1 = b'.b1 ∧ s.filtX = s'.filtX) ∧ b.b2 ≠ b'.b2 ∧ s.filtY ≠ s'.filtY) :=
  ⟨six 1 2 3 4 5 6, six 1 2 9 4 5 6, mid 1#2 ⟨7#32, 8#32, 9#32⟩ .idle .fail, mid 1#2 ⟨7#32, 0#32, 9#32⟩ .idle .fail, by decide⟩
theorem witness_ScalingIsExact : (∃ p : Params, p.rawSigned = true) ∧ (∃ p : Params, p.rawSigned = false) :=
  ⟨⟨Config.params, rfl⟩, ⟨Config.legacyUnsigned Config.params, rfl⟩⟩
theorem witness_SelfTestSequencerRows : (∃ s : State, s.seq = .idle ∧ s.configured = true) ∧
    (∃ (s : State) (b : Six), s.seq = .stEnter ∧ s.busAns = some (.ok b)) ∧
    (∃ s : State, s.seq = .stEnter ∧ s.busAns = some .fail) ∧
    (∃ (s : State) (b : Six) (f : Sample), s.seq = .stCapture ∧ s.busAns = some (.ok b) ∧ f = captured Config.params b s) ∧
    (∃ s : State, s.seq = .stCapture ∧ s.busAns = some .fail) ∧
    (∃ (s : State) (b : Six), s.seq = .stRestore ∧ s.busAns = some (.ok b)) ∧
    (∃ s : State, s.seq = .stRestore ∧ s.busAns = some .fail) :=
  ⟨witness_ThreeClauses.1, ⟨mid 3#2 zeros .stEnter (.ok someBytes), someBytes, rfl, rfl⟩, ⟨mid 3#2 zeros .stEnter .fail, rfl, rfl⟩,
    ⟨mid 3#2 zeros .stCapture (.ok someBytes), someBytes, _, rfl, rfl, rfl⟩, ⟨mid 3#2 zeros .stCapture .fail, rfl, rfl⟩,
    ⟨mid 3#2 zeros .stRestore (.ok someBytes), someBytes, rfl, rfl⟩, ⟨mid 3#2 zeros .stRestore .fail, rfl, rfl⟩⟩
theorem witness_SelfTestSixOutcomes :
    (∃ s : State, s.configured = true ∧ Offered 0x40000000#32 [.ok someBytes, .ok someBytes, .fail] [] [] s) ∧
    (∃ s : State, s.configured = true ∧ Offered 0x40000000#32 [.ok someBytes, .fail, .fail] [] [] s) ∧
    (∃ s : State, s.configured = true ∧ Offered 0x40000000#32 [.fail, .ok someBytes] [] [] s) :=
  ⟨⟨_, rfl, ready_offered _ _⟩, ⟨_, rfl, ready_offered _ _⟩, ⟨_, rfl, ready_offered _ _⟩⟩
theorem witness_SelfTestRestoresOnEveryPath : ∃ (s : State) (ds : List Draw) (r : BigResult), s.configured = true ∧
    bigStep Config.params 0x40000000#32 ds s = some r :=
  ⟨ready 0#32 [], [.fail, .fail], _, rfl, rfl⟩
theorem witness_OwedRestorationIsNotSkipped : ∃ s t : State, Inv s ∧ step s = .next t ∧ (s.seq = .stEnter ∨ s.seq = .stCapture) :=
  ⟨_, _, entering_inv [.answer .fail], step_of_case (.enterFail [] _ rfl rfl rfl (by decide)), .inl rfl⟩
theorem witness_FilterIsExactAndBounded : ∃ p : Params, p.wf = true := ⟨Config.params, by decide⟩
theorem witness_FilterStaysWithinItsInputs : ∃ (s t : State) (lo hi : Int), lo ≤ 0 ∧ 0 ≤ hi ∧ filterWithin lo hi s.filt ∧
    (∀ b es, s.events = .answer (.ok b) :: es → filterWithin lo hi (convert Config.params b s.cfgRange)) ∧ step s = .next t :=
  ⟨busy [.answer .fail], _, 0, 0, by decide, by decide, by simp [filterWithin, State.filt, busy, waitingFor, State.reset,
    State.resetOf], by simp [busy, waitingFor], step_of_case (.failed [] _ .powerOn rfl rfl rfl (by decide) (by simp))⟩
theorem witness_FilterFixedPoints : ∃ (p : Params) (y x : Word), p.wf = true ∧ filter p y x = y :=
  ⟨Config.params, 65532#32, 65536#32, by decide⟩
theorem witness_FilterApproachesConstantInput :
    (∃ y x : Word, y.toInt < x.toInt - 4) ∧ (∃ y x : Word, x.toInt - 4 ≤ y.toInt ∧ y.toInt ≤ x.toInt) ∧
    (∃ y x : Word, x.toInt < y.toInt) ∧ (∃ y x : Word, y.toInt < x.toInt) :=
  ⟨⟨0#32, 5#32, by decide⟩, ⟨0#32, 4#32, by decide⟩, ⟨0#32, BitVec.ofInt 32 (-1), by decide⟩, ⟨0#32, 1#32, by decide⟩⟩
theorem witness_FilterTracksExactRecurrence : ∃ p : Params, p.wf = true := witness_FilterIsExactAndBounded
theorem witness_FilterIsMonotoneWithoutOvershoot : ∃ x : Word, 0 ≤ x.toInt := ⟨65536#32, by decide⟩
theorem witness_PassThroughVariantReturnsScaledSample : ∃ p : Params, p.wf = true ∧ p.alphaNum = p.alphaDen ∧
    (∃ (s : State) (b : Six) (g : Sample), s.busAns = some (.ok b) ∧ g = convert p b s.cfgRange ∧ s.seq = .xfer) ∧
    (∃ (s : State) (b : Six) (g : Sample), s.busAns = some (.ok b) ∧ g = convert p b s.cfgRange ∧ s.seq = .stCapture) :=
  ⟨Config.simplerVariant Config.params, by decide, rfl, ⟨mid 3#2 zeros .xfer (.ok someBytes), someBytes, _, rfl, rfl, rfl⟩,
    ⟨mid 3#2 zeros .stCapture (.ok someBytes), someBytes, _, rfl, rfl, rfl⟩⟩
theorem witness_ConfigureProgramsDataFormat : ∃ (s : State) (range : BitVec 2) (asel : BitVec 1) (b : Six) (m m' : Memory),
    Offered (encode (.configure range asel)) [.ok b] [] [] s ∧ m.wf = true ∧
    refSensor [slaveAddr Config.params asel] m ⟨configureTxn Config.params range asel, some (.ok [])⟩ m' :=
  ⟨_, 2#2, 1#1, someBytes, [(0x31, 0x82#8)], [(0x31, 0x02#8)], unready_offered _ _, by decide,
    by simp only [refSensor, Txn.sa, configureTxn, writeTxn, List.mem_singleton, if_true, sensorStep]; decide⟩
/-- The bus log of a SELF_TEST at 2g whose capture and whose enter write fail, the register left in self-test mode, and whose
restoration is answered `Ok`. -/
theorem witness_SelfTestLeavesDataFormatRestored : ∃ (s : State) (ds : List Draw) (r : BigResult) (log : List BusEntry)
    (first last : BusEntry), s.configured = true ∧ bigStep Config.params 0x40000000#32 ds s = some r ∧
    log.map (·.event) = r.txns ∧ sensorLog [sa Config.params s] log ∧ log.head? = some first ∧ first.before.wf = true ∧
    log.getLast? = some last ∧ last.event.answer = some (.ok []) := by
  refine ⟨ready 0#32 [], [.fail, .ok someBytes], _,
    [⟨[], answered (enterTxn Config.params (ready 0#32 [])) .fail, [(0x31, 0x80#8)]⟩,
     ⟨[(0x31, 0x80#8)], answered (restoreTxn Config.params (ready 0#32 [])) (.ok someBytes), []⟩], _, _, rfl, rfl, rfl,
    ⟨⟨rfl, trivial⟩, ?_⟩, rfl, rfl, rfl, rfl⟩
  simp only [List.mem_cons, List.not_mem_nil, or_false, forall_eq_or_imp, forall_eq]
  constructor
  · simp only [refSensor, answered, enterTxn, writeTxn, Txn.sa, List.mem_singleton, if_true, sensorStep, answerTo]
    refine ⟨by decide, fun k hk => ?_⟩
    have : k ≠ 0x31 := by
      rintro rfl
      simp [Txn.touches, Txn.span, regDataFormat] at hk
    simp [Memory.read, Ne.symm this]
  · simp only [refSensor, answered, restoreTxn, writeTxn, Txn.sa, List.mem_singleton, if_true, sensorStep, answerTo]
    decide
/-- The two commands go to the two slave addresses, with a CONFIGURE to the second one between them. -/
theorem witness_OffsetRoundTrip : ∃ (s s' : State) (ox oy oz : Byte) (b b' : Six) (ws ws' : List Word) (es es' : List Event)
    (home : List SlaveAddr) (mid : List BusEntry) (m : Memory),
    Offered (encode (.writeOffset ox oy oz)) [.ok b] ws es s ∧ s.configured = true ∧
    Offered (encode .readOffset) [.ok b'] ws' es' s' ∧ s'.configured = true ∧ s'.cfgAsel ≠ s.cfgAsel ∧
    sa Config.params s ∈ home ∧ sa Config.params s' ∈ home ∧
    (∀ x, x ∈ mid → ∀ k, 0x1E ≤ k → k ≤ 0x20 → x.event.txn.touches k = false) ∧
    sensorLog home (⟨[], answered (writeOffsetTxn Config.params ox oy oz s) (.ok b), m⟩ ::
      (mid ++ [⟨m ++ [(0x31, 0x03#8)], answered (readOffsetTxn Config.params s') (.ok b'), m ++ [(0x31, 0x03#8)]⟩])) := by
  have h0 := ready_inv (encode .readOffset) [.ok (six 0xFF 0x02 0x80 0 0 0)]
  refine ⟨_, { ready (encode .readOffset) [.ok (six 0xFF 0x02 0x80 0 0 0)] with cfgAsel := 1#1 }, 0xFF#8, 0x02#8, 0x80#8,
    someBytes, six 0xFF 0x02 0x80 0 0 0, _, [], _, [], [Config.addrLow, Config.addrHigh],
    [⟨[(0x1E, 0xFF#8), (0x1F, 0x02#8), (0x20, 0x80#8)], answered (configureTxn Config.params 3#2 1#1) (.ok someBytes),
      [(0x1E, 0xFF#8), (0x1F, 0x02#8), (0x20, 0x80#8), (0x31, 0x03#8)]⟩],
    [(0x1E, 0xFF#8), (0x1F, 0x02#8), (0x20, 0x80#8)], ready_offered _ _, rfl,
    ⟨⟨h0.port, h0.phase, h0.boundX, h0.boundY, h0.boundZ, by simp [ready]⟩, rfl, rfl, rfl⟩, rfl, by decide,
    by simp [sa, slaveAddr, ready, Config.params, State.reset, State.resetOf], by simp [sa, slaveAddr, Config.params], ?_,
    ⟨rfl, rfl, trivial⟩, ?_⟩
  · simp only [List.mem_singleton, forall_eq]
    intro k _ hk
    simp [Txn.touches, Txn.span, answered, configureTxn, writeTxn, regDataFormat]
    omega
  simp only [List.mem_cons, List.cons_append, List.nil_append, List.not_mem_nil, or_false, forall_eq_or_imp, forall_eq]
  refine ⟨?_, ?_, ?_⟩
  · have hm : sa Config.params (ready (encode (.writeOffset 0xFF#8 0x02#8 0x80#8)) [.ok someBytes]) ∈
        [Config.addrLow, Config.addrHigh] := by simp [sa, slaveAddr, ready, Config.params, State.reset, State.resetOf]
    simp only [refSensor, answered, writeOffsetTxn, writeTxn, Txn.sa, hm, if_true, sensorStep, answerTo]
    decide
  · have hm : slaveAddr Config.params 1#1 ∈ [Config.addrLow, Config.addrHigh] := by simp [slaveAddr, Config.params]
    simp only [refSensor, answered, configureTxn, writeTxn, Txn.sa, hm, if_true, sensorStep, answerTo]
    decide
  · unfold refSensor
    rw [if_pos (by simp [answered, readOffsetTxn, readTxn, Txn.sa, sa, slaveAddr, Config.params])]
    refine ⟨rfl, ?_⟩
    decide
theorem witness_ResetEventAtAnyTime : ∃ (s : State) (es : List Event), s.events = .reset :: es ∧ s.seq = .stEnter :=
  ⟨entering [.reset], _, rfl, rfl⟩
theorem witness_ResetEventAtAnyTime_late : ∃ (s : State) (d : Draw) (es : List Event), s.outTxn = none ∧
    s.events = .answer d :: es :=
  ⟨{ State.reset with events := [.answer .fail] }, _, _, rfl, rfl⟩
theorem witness_ResetKeepsHistoryAndHostWords : ∃ (s t : State) (es : List Event), s.events = .reset :: es ∧ step s = .next t :=
  ⟨busy [.reset], _, _, rfl, step_of_case (.reset [] rfl)⟩

/-- P1 in part: CONFIGURE, POWER_ON, READ_ACCEL. -/
def bootCommands : List (Word × List Draw) :=
  [(0x10000004#32, [.ok someBytes]), (0x20000000#32, [.ok someBytes]), (0x30000000#32, [.ok (six 0 1 0 0 0 0xFF)])]
theorem witness_PowerOnIsTheHostsObligation : (∃ s : State, s.configured = true) ∧
    ∃ (q : Session) (pre : List Exchange) (e : Exchange), session Config.params State.reset bootCommands = some q ∧
      powerOnFirst q.exchanges = true ∧ q.exchanges = pre ++ [e] ∧ e.asks Instr.isAcquisition = true :=
  ⟨⟨ready 0#32 [], rfl⟩, _, [_, _], _, rfl, by decide, rfl, by decide⟩

-- ## Sessions and host obligations (R253 to R256)

/-- P1: the sample of pc 3. -/
theorem test_session_boot : (session Config.params State.reset bootCommands).map (fun q => (bootOrder q.exchanges, q.state.filt)) =
    some (true, ⟨0x00003333#32, 0#32, 0xFFFFCCCC#32⟩) := by decide

/-- R253, R254: P4 omits POWER_ON, and its READ_ACCEL answers OK all the same. -/
theorem test_session_without_power_on :
    (session Config.params State.reset [(0x10000002#32, [.ok someBytes]), (0x30000000#32, [.ok (six 0xFF 0xFF 0 0x80 0xFF 0x7F)])]).map
      (fun q => (configureFirst q.exchanges, powerOnFirst q.exchanges, q.exchanges.map (·.response.status))) =
    some (true, false, [0x00#8, 0x00#8]) := by decide

/-- R255: 46 samples reach the fixed point at 1 g, 45 do not. -/
theorem test_settled_after : settledAfter Config.params 65536#32 46 = true ∧ settledAfter Config.params 65536#32 45 = false := by
  have h20 : filterRun Config.params 65536#32 0#32 (10 + 10) = 64778#32 := by
    rw [filterRun_add, test_filter_ten_steps]
    decide
  have h40 : filterRun Config.params 65536#32 0#32 (20 + 20) = 65525#32 := by
    rw [filterRun_add, h20, show 20 = 10 + 10 from rfl, filterRun_add,
      show filterRun Config.params 65536#32 64778#32 10 = 65453#32 by decide]
    decide
  have later : ∀ n, filterRun Config.params 65536#32 0#32 (40 + n) = filterRun Config.params 65536#32 65525#32 n := by
    intro n
    rw [filterRun_add, h40]
  simp only [settledAfter, later 5, later 6, later 7]
  decide

/-- R256: a captured self-test reading, restoration failed, stays until the next successful CONFIGURE. -/
theorem test_self_test_bias :
    selfTestBias false [⟨0x40000000#32, ⟨0x41#8, 0#32, 0#32, 0#32⟩, []⟩, ⟨0x30000000#32, ⟨0x00#8, 0#32, 0#32, 0#32⟩, []⟩] = true ∧
    selfTestBias true [⟨0x10000003#32, ⟨0x11#8, 0#32, 0#32, 0#32⟩, []⟩] = true ∧
    selfTestBias true [⟨0x10000003#32, ⟨0x00#8, 0#32, 0#32, 0#32⟩, []⟩] = false ∧
    selfTestBias false [⟨0x40000000#32, ⟨0x21#8, 0#32, 0#32, 0#32⟩, []⟩] = false := by decide

end Sys2Proof.Tests
end

section
/-! The datapath's bounds (R142, R180, R182). -/

namespace Sys2Proof.Machine

/-- R24: the four scale factors. -/
theorem scaleFactor_cases (rc : BitVec 2) : (scaleFactor rc).toNat = 256 ∨ (scaleFactor rc).toNat = 512 ∨
    (scaleFactor rc).toNat = 1024 ∨ (scaleFactor rc).toNat = 2048 := by
  revert rc
  decide

/-- R142: a channel value of at most 20 bits is scaled without loss. -/
theorem scale_toInt {v : Int} (h1 : -(2 ^ 20) ≤ v) (h2 : v < 2 ^ 20) (rc : BitVec 2) :
    (scale v rc).toInt = v * ((scaleFactor rc).toNat : Int) := by
  have hfit : -2 ^ 31 ≤ v * ((scaleFactor rc).toNat : Int) ∧ v * ((scaleFactor rc).toNat : Int) < 2 ^ 31 := by
    rcases scaleFactor_cases rc with hf | hf | hf | hf <;> rw [hf] <;> omega
  exact BitVec.toInt_ofInt_eq_self (by decide) hfit.1 hfit.2

/-- R140 to R142: a lane's value stays within the bound of R182. -/
theorem convertAxis_bound (rc : BitVec 2) (low high : Byte) : filterBound (convertAxis Config.params rc low high) := by
  have h1 : -(2 ^ 15) ≤ (raw16 low high).toInt := (raw16 low high).le_toInt
  have h2 : (raw16 low high).toInt < 2 ^ 15 := (raw16 low high).toInt_lt
  have he : (convertAxis Config.params rc low high).toInt = (raw16 low high).toInt * ((scaleFactor rc).toNat : Int) :=
    scale_toInt (v := (raw16 low high).toInt) (by omega) (by omega) rc
  unfold filterBound
  rw [he]
  rcases scaleFactor_cases rc with hf | hf | hf | hf <;> rw [hf] <;> omega

section Filter

variable {p : Params} {lo hi : Int}

theorem filterNum_within (hp : p.wf = true) {y x : Int} (hy : lo ≤ y ∧ y ≤ hi) (hx : lo ≤ x ∧ x ≤ hi) :
    lo * p.alphaDen ≤ filterNum p y x ∧ filterNum p y x ≤ hi * p.alphaDen := by
  simp only [Params.wf, Bool.and_eq_true, decide_eq_true_eq] at hp
  unfold filterNum
  constructor <;> nlinarith

theorem floorDiv_filterNum_within (hp : p.wf = true) {y x : Int} (hy : lo ≤ y ∧ y ≤ hi) (hx : lo ≤ x ∧ x ≤ hi) :
    lo ≤ floorDiv (filterNum p y x) p.alphaDen ∧ floorDiv (filterNum p y x) p.alphaDen ≤ hi := by
  obtain ⟨hn1, hn2⟩ := filterNum_within hp hy hx
  simp only [Params.wf, Bool.and_eq_true, decide_eq_true_eq] at hp
  have hd : (0 : Int) < p.alphaDen := by omega
  obtain ⟨hq1, hq2⟩ := floorDiv_bounds (filterNum p y x) hd
  have h1 := lt_of_mul_lt_mul_right (hn1.trans_lt hq2) hd.le
  exact ⟨by omega, le_of_mul_le_mul_right (hq1.trans hn2) hd⟩

/-- R180: a filter step is exact; its value fits the register. -/
theorem filter_toInt (hp : p.wf = true) (y x : Word) :
    (filter p y x).toInt = floorDiv (filterNum p y.toInt x.toInt) p.alphaDen := by
  have hq := floorDiv_filterNum_within (lo := -2 ^ 31) (hi := 2 ^ 31 - 1) hp (y := y.toInt) (x := x.toInt)
    ⟨y.le_toInt, Int.le_sub_one_of_lt y.toInt_lt⟩ ⟨x.le_toInt, Int.le_sub_one_of_lt x.toInt_lt⟩
  exact BitVec.toInt_ofInt_eq_self (by decide) hq.1 (by omega)

/-- R182: a filter step stays between the bounds of its old value and its input. -/
theorem filter_within (hp : p.wf = true) {y x : Word} (hy : lo ≤ y.toInt ∧ y.toInt ≤ hi)
    (hx : lo ≤ x.toInt ∧ x.toInt ≤ hi) : lo ≤ (filter p y x).toInt ∧ (filter p y x).toInt ≤ hi := by
  rw [filter_toInt hp]
  exact floorDiv_filterNum_within hp hy hx

end Filter

/-- R182: a capture keeps each filter register within its bound. -/
theorem captured_bound {s : State} (hx : filterBound s.filtX) (hy : filterBound s.filtY) (hz : filterBound s.filtZ) (b : Six) :
    filterBound (captured Config.params b s).x ∧ filterBound (captured Config.params b s).y ∧
      filterBound (captured Config.params b s).z :=
  have hp : Config.params.wf = true := by decide
  ⟨filter_within hp hx (convertAxis_bound ..), filter_within hp hy (convertAxis_bound ..),
    filter_within hp hz (convertAxis_bound ..)⟩

end Sys2Proof.Machine
end

section
/-! The engine's invariant over one micro-step, and what only some events write (10_state.md R20 to R34). -/

namespace Sys2Proof.Machine

/-- What one micro-step does to the configuration and the filter registers (R21 to R23, R26, R181). -/
inductive RegsCase (s t : State) : Prop where
  | kept : sameConfig s t → sameFilter s t → RegsCase s t
  | reset (es : List Event) : s.events = .reset :: es → t = resetEvent Config.params { s with events := es } → RegsCase s t
  | configured (es : List Event) (b : Six) (range : BitVec 2) (asel : BitVec 1) : s.events = .answer (.ok b) :: es →
      decode s.cmdLatch = .cmd (.configure range asel) → t.cfgRange = range → t.cfgAsel = asel → t.configured = true →
      t.filt = ⟨0#32, 0#32, 0#32⟩ → RegsCase s t
  | captured (es : List Event) (b : Six) : s.events = .answer (.ok b) :: es →
      ((decode s.cmdLatch = .cmd .readAccel ∧ s.seq = .xfer) ∨ (decode s.cmdLatch = .cmd .selfTest ∧ s.seq = .stCapture)) →
      sameConfig s t → t.filt = captured Config.params b s → RegsCase s t

/-- `step_cases` read for these registers alone. -/
theorem step_regs {s t : State} (h : step s = .next t) : RegsCase s t := by
  cases step_cases h with
  | reset es he => exact .reset es he rfl
  | done es x i b he _ hs hd hi =>
    cases i with
    | configure range asel => exact .configured es b range asel he hd rfl rfl rfl rfl
    | readAccel => exact .captured es b he (.inl ⟨hd, hs⟩) ⟨rfl, rfl, rfl⟩ rfl
    | selfTest => exact absurd rfl hi
    | powerOn | readOffset | writeOffset | readDevid => exact .kept ⟨rfl, rfl, rfl⟩ ⟨rfl, rfl, rfl⟩
  | captureOk es x b he _ hs hd => exact .captured es b he (.inr ⟨hd, hs⟩) ⟨rfl, rfl, rfl⟩ rfl
  | notAccepted | illegalWord | unconfigured | issued | lateAnswer | failed | enterOk | enterFail | captureFail | restoreOk
  | restoreFail => exact .kept ⟨rfl, rfl, rfl⟩ ⟨rfl, rfl, rfl⟩

/-- The part of the invariant that speaks of the configuration and the filter registers (R34, R182). -/
structure RegsInv (s : State) : Prop where
  boundX : filterBound s.filtX
  boundY : filterBound s.filtY
  boundZ : filterBound s.filtZ
  unconfigured : s.configured = false →
    s.cfgRange = Config.params.resetRange ∧ s.cfgAsel = Config.params.resetAsel ∧
    s.filtX = 0#32 ∧ s.filtY = 0#32 ∧ s.filtZ = 0#32

/-- The part that speaks of the port and the command engine (R27 to R30, R104). -/
def engineInv (s : State) : Prop := s.busAns = none ∧ phaseInv Config.params s

theorem inv_iff {s : State} : Inv s ↔ engineInv s ∧ RegsInv s :=
  ⟨fun ⟨port, phase, hx, hy, hz, hu⟩ => ⟨⟨port, phase⟩, hx, hy, hz, hu⟩,
    fun ⟨⟨port, phase⟩, hx, hy, hz, hu⟩ => ⟨port, phase, hx, hy, hz, hu⟩⟩

theorem filterBound_zero : filterBound 0#32 := by
  unfold filterBound
  decide

/-- A configured engine's registers need only the bounds. -/
theorem regsInv_of_configured {s : State} {f : Sample} (hc : s.configured = true) (hf : s.filt = f) (hx : filterBound f.x)
    (hy : filterBound f.y) (hz : filterBound f.z) : RegsInv s := by
  subst hf
  exact ⟨hx, hy, hz, fun h => absurd (hc.symm.trans h) (by decide)⟩

theorem regsInv_resetEvent (s : State) : RegsInv (resetEvent Config.params s) :=
  ⟨filterBound_zero, filterBound_zero, filterBound_zero, fun _ => ⟨rfl, rfl, rfl, rfl, rfl⟩⟩

theorem regsInv_of_same {s t : State} (hc : sameConfig s t) (hf : sameFilter s t) (h : RegsInv s) : RegsInv t := by
  obtain ⟨hrange, hasel, hconf⟩ := hc
  obtain ⟨hx, hy, hz⟩ := hf
  obtain ⟨h1, h2, h3, h4⟩ := h
  constructor <;> simpa only [hrange, hasel, hconf, hx, hy, hz]

theorem phaseInv_xfer {p : Params} {s : State} (hs : s.seq = .xfer) :
    phaseInv p s ↔ latchesFresh s ∧ ∃ i, decode s.cmdLatch = .cmd i ∧ i ≠ .selfTest ∧
      (i.isConfigure = true ∨ s.configured = true) ∧ outstanding (firstTxn p i s) s := by
  simp only [phaseInv, hs]

theorem phaseInv_stEnter {p : Params} {s : State} (hs : s.seq = .stEnter) :
    phaseInv p s ↔ selfTestRuns (enterTxn p s) s ∧ latchesFresh s := by
  simp only [phaseInv, hs]

theorem phaseInv_stCapture {p : Params} {s : State} (hs : s.seq = .stCapture) :
    phaseInv p s ↔ selfTestRuns (dataTxn p s) s ∧ latchesFresh s := by
  simp only [phaseInv, hs]

/-- What the latches hold while SELF_TEST's restoration write is outstanding (R161). -/
def restoreLatches (s : State) : Prop :=
  (s.failLatch = 0#3 ∧ s.dataLatch0 = s.filtX ∧ s.dataLatch1 = s.filtY ∧ s.dataLatch2 = s.filtZ) ∨
  ((s.failLatch = failMain ∨ s.failLatch = failCapture) ∧ dataClear s)

theorem phaseInv_stRestore {p : Params} {s : State} (hs : s.seq = .stRestore) :
    phaseInv p s ↔ selfTestRuns (restoreTxn p s) s ∧ restoreLatches s := by
  simp only [phaseInv, hs, restoreLatches]

/-- What a busy engine holds: a latched command that the dispatch did not refuse, and an outstanding transaction (R30, R103). -/
theorem busy_holds {s : State} (hi : Inv s) (hs : s.seq ≠ .idle) :
    ∃ i x, decode s.cmdLatch = .cmd i ∧ (i.isConfigure = true ∨ s.configured = true) ∧ s.outTxn = some x := by
  have hp := hi.phase
  have selfTest : ∀ {x}, selfTestRuns x s →
      ∃ i x, decode s.cmdLatch = .cmd i ∧ (i.isConfigure = true ∨ s.configured = true) ∧ s.outTxn = some x :=
    fun ⟨hd, hc, ho, _⟩ => ⟨_, _, hd, .inr hc, ho⟩
  cases hq : s.seq with
  | idle => exact absurd hq hs
  | xfer =>
    obtain ⟨_, i, hd, _, hc, ho, _⟩ := (phaseInv_xfer hq).mp hp
    exact ⟨i, _, hd, hc, ho⟩
  | stEnter => exact selfTest ((phaseInv_stEnter hq).mp hp).1
  | stCapture => exact selfTest ((phaseInv_stCapture hq).mp hp).1
  | stRestore => exact selfTest ((phaseInv_stRestore hq).mp hp).1

/-- A command in progress is CONFIGURE, or runs on a configured engine (R103). -/
theorem busy_configured {s : State} {i : Instr} (hi : Inv s) (hs : s.seq ≠ .idle) (hd : decode s.cmdLatch = .cmd i) :
    i.isConfigure = true ∨ s.configured = true := by
  obtain ⟨j, _, hj, hc, _⟩ := busy_holds hi hs
  obtain rfl : i = j := by simpa [hd] using hj
  exact hc

/-- Captures are configured commands within R182's bound; every other write is of reset values or CONFIGURE's. -/
theorem step_keeps_regsInv {s t : State} (hi : Inv s) (h : step s = .next t) : RegsInv t := by
  obtain ⟨-, hr⟩ := inv_iff.mp hi
  cases step_regs h with
  | kept hc hf => exact regsInv_of_same hc hf hr
  | reset es he ht =>
    subst ht
    exact regsInv_resetEvent _
  | configured es b range asel he hd _ _ hc hf =>
    exact regsInv_of_configured hc hf filterBound_zero filterBound_zero filterBound_zero
  | captured es b he hcmd hc hf =>
    obtain ⟨hx, hy, hz⟩ := captured_bound hr.boundX hr.boundY hr.boundZ b
    have hconf : s.configured = true := by
      rcases hcmd with ⟨hd, hs⟩ | ⟨hd, hs⟩ <;>
        exact (busy_configured hi (by simp [hs]) hd).resolve_left (by decide)
    obtain ⟨-, -, hsame⟩ := hc
    exact regsInv_of_configured (hsame.trans hconf) hf hx hy hz

theorem engineInv_complete (c : Code) (f : BitVec 3) (d0 d1 d2 : Word) (s : State) : engineInv (complete c f d0 d1 d2 s) :=
  ⟨rfl, rfl, rfl, rfl, rfl, rfl, rfl⟩

theorem engineInv_resetEvent (p : Params) (s : State) : engineInv (resetEvent p s) := ⟨rfl, rfl, rfl, rfl, rfl, rfl, rfl⟩

theorem engineInv_okState {i : Instr} (hi : i ≠ .selfTest) (b : Six) (s : State) :
    engineInv (okState Config.params i b s) := by
  cases i with
  | selfTest => exact absurd rfl hi
  | configure | powerOn | readAccel | readOffset | writeOffset | readDevid => exact engineInv_complete ..

/-- The first transaction depends on the range and the address select only (R60). -/
theorem firstTxn_of_sameConfig {s t : State} (h : sameConfig s t) (p : Params) (i : Instr) :
    firstTxn p i t = firstTxn p i s := by
  obtain ⟨hrange, hasel, -⟩ := h
  cases i <;> simp only [firstTxn, powerOnTxn, dataTxn, enterTxn, readOffsetTxn, writeOffsetTxn, devidTxn, sa, hrange, hasel]

/-- An accepted command waits for the answer to its first transaction (R103). -/
theorem engineInv_issue_first {s : State} {i : Instr} (hd : decode s.cmdLatch = .cmd i)
    (hc : i.isConfigure = true ∨ s.configured = true) (hl : latchesFresh s) :
    engineInv (issue (if i = .selfTest then .stEnter else .xfer) (firstTxn Config.params i s) s) := by
  refine ⟨rfl, ?_⟩
  by_cases hi : i = .selfTest
  · subst hi
    exact ⟨⟨hd, hc.resolve_left (by decide), rfl, rfl⟩, hl⟩
  · rw [if_neg hi]
    refine ⟨hl, i, hd, hi, hc, ?_⟩
    rw [firstTxn_of_sameConfig (s := s) ⟨rfl, rfl, rfl⟩]
    exact ⟨rfl, rfl⟩

/-- The move to `ST_RESTORE` (R161). -/
theorem engineInv_toRestore {s : State} (hd : decode s.cmdLatch = .cmd .selfTest) (hc : s.configured = true)
    (hl : restoreLatches s) : engineInv (toRestore Config.params s) :=
  ⟨rfl, ⟨hd, hc, rfl, rfl⟩, hl⟩

/-- A failed enter write or data read goes to `ST_RESTORE` with its flag set and no data (R161). -/
theorem restoreLatches_setFlag {s : State} {flag : BitVec 3} (hf : flag = failMain ∨ flag = failCapture)
    (hl : latchesFresh s) : restoreLatches (setFlag flag s) := by
  obtain ⟨hfail, hdata⟩ := hl
  refine .inr ⟨?_, hdata⟩
  simpa [hfail] using hf

/-- Every micro-step ends idle, or waiting in a phase whose facts it has just set up (R103, R105, R161). -/
theorem step_keeps_engineInv {s t : State} (hi : Inv s) (h : step s = .next t) : engineInv t := by
  have hp := hi.phase
  cases step_cases h with
  | reset es he => exact engineInv_resetEvent _ _
  | notAccepted es he hn => exact ⟨hi.port, hp⟩
  | lateAnswer es d he ho => exact ⟨hi.port, hp⟩
  | illegalWord | unconfigured | failed | restoreOk | restoreFail => exact engineInv_complete ..
  | done es x i b he ho hs hd hne => exact engineInv_okState hne b _
  | issued es w ws i he hs hw hd hc =>
    rw [firstTxn_of_sameConfig (s := accepting w ws es s) (t := s) ⟨rfl, rfl, rfl⟩]
    exact engineInv_issue_first (s := accepting w ws es s) hd hc ⟨rfl, rfl, rfl, rfl⟩
  | enterOk es x b he ho hs hd =>
    obtain ⟨⟨_, hc, _⟩, hl⟩ := (phaseInv_stEnter hs).mp hp
    exact ⟨rfl, ⟨hd, hc, rfl, rfl⟩, hl⟩
  | enterFail es x he ho hs hd =>
    obtain ⟨⟨_, hc, _⟩, hl⟩ := (phaseInv_stEnter hs).mp hp
    exact engineInv_toRestore hd hc (restoreLatches_setFlag (.inl rfl) hl)
  | captureOk es x b he ho hs hd =>
    obtain ⟨⟨_, hc, _⟩, hl⟩ := (phaseInv_stCapture hs).mp hp
    obtain ⟨hfail, -⟩ := hl
    exact engineInv_toRestore hd hc (.inl ⟨hfail, rfl, rfl, rfl⟩)
  | captureFail es x he ho hs hd =>
    obtain ⟨⟨_, hc, _⟩, hl⟩ := (phaseInv_stCapture hs).mp hp
    exact engineInv_toRestore hd hc (restoreLatches_setFlag (.inr rfl) hl)

/-- Settles O23: the step's writes keep the registers' part, its cases the engine's part. -/
theorem everyStepKeepsInvariant : Obligations.EveryStepKeepsInvariant := fun _ _ hi h =>
  inv_iff.mpr ⟨step_keeps_engineInv hi h, step_keeps_regsInv hi h⟩

theorem inv_resetEvent (s : State) : Inv (resetEvent Config.params s) :=
  inv_iff.mpr ⟨engineInv_resetEvent Config.params s, regsInv_resetEvent s⟩

/-- Settles O22: reset with any outside agents is the outcome of a reset event. -/
theorem invariantHoldsAtReset : Obligations.InvariantHoldsAtReset := fun words events =>
  inv_resetEvent { State.reset with hostWords := words, events := events }

theorem reachable_inv {s : State} (h : Reachable s) : Inv s := by
  induction h with
  | boot words events => exact invariantHoldsAtReset words events
  | step s t _ hstep ih => exact everyStepKeepsInvariant s t ih hstep

/-- Settles O24: from the invariant of a reachable state. -/
theorem outTxnExactlyWhenBusy : Obligations.OutTxnExactlyWhenBusy := by
  intro s hr
  have hi := reachable_inv hr
  refine ⟨⟨fun ho hs => ho (idle_latches hi hs).1, fun hs => ?_⟩, fun x hx => ?_⟩
  · obtain ⟨_, x, _, _, hx⟩ := busy_holds hi hs
    simp [hx]
  · obtain ⟨-, h, hh⟩ := outstanding_history hi hx
    rw [hh]
    rfl

/-- Settles O25: from the writes of one micro-step. -/
theorem onlyConfigureOkAndResetWriteConfiguration : Obligations.OnlyConfigureOkAndResetWriteConfiguration := by
  intro s t h
  cases step_regs h with
  | kept hc _ => exact .inl hc
  | captured es b he _ hc _ => exact .inl hc
  | reset es he _ => exact .inr (.inl ⟨es, he⟩)
  | configured es b range asel he hd hr ha hc _ => exact .inr (.inr ⟨b, es, range, asel, he, hd, hr, ha, hc⟩)

/-- Settles O26: from the writes of one micro-step. -/
theorem onlyThreeEventsWriteTheFilter : Obligations.OnlyThreeEventsWriteTheFilter := by
  intro s t h
  cases step_regs h with
  | kept _ hf => exact .inl hf
  | reset es he ht => exact .inr (.inl ⟨by rw [ht]; rfl, .inl ⟨es, he⟩⟩)
  | configured es b range asel he hd _ _ _ hf => exact .inr (.inl ⟨hf, .inr ⟨b, es, range, asel, he, hd⟩⟩)
  | captured es b he hcmd _ hf => exact .inr (.inr ⟨b, es, he, hf, hcmd⟩)

/-- Settles O40: of the micro-steps in these two phases, only an answer leaves, and it goes on or to `ST_RESTORE`. -/
theorem owedRestorationIsNotSkipped : Obligations.OwedRestorationIsNotSkipped := by
  intro s t _ h howed
  have hbusy : ∀ {ph}, s.seq = ph → ph ≠ .stEnter → ph ≠ .stCapture → False := by
    rintro ph rfl h1 h2
    exact howed.elim h1 h2
  cases step_cases h with
  | reset es he => exact .inl ⟨es, he⟩
  | notAccepted es he hn => exact .inr (.inl rfl)
  | lateAnswer es d he ho => exact .inr (.inl rfl)
  | enterOk es x b he ho hs => exact .inr (.inr (.inl ⟨hs, rfl⟩))
  | enterFail | captureOk | captureFail => exact .inr (.inr (.inr ⟨rfl, rfl⟩))
  | illegalWord _ _ _ _ _ hs | unconfigured _ _ _ _ _ hs | issued _ _ _ _ _ hs | failed _ _ _ _ _ hs
  | done _ _ _ _ _ _ hs | restoreOk _ _ _ _ _ hs | restoreFail _ _ _ _ hs =>
    exact (hbusy hs (by decide) (by decide)).elim

/-- `s` with other values in the fields that an unconfigured engine does not use. -/
def withRegs (range : BitVec 2) (asel : BitVec 1) (f : Sample) (s : State) : State :=
  { s with cfgRange := range, cfgAsel := asel, filtX := f.x, filtY := f.y, filtZ := f.z }

/-- R34: a step of an unconfigured engine is taken whatever those fields hold: either it leaves them alone and the engine
unconfigured, or it is the reset event or CONFIGURE's `Ok` and overwrites them. -/
theorem step_withRegs {s t : State} (range : BitVec 2) (asel : BitVec 1) (f : Sample) (hi : Inv s) (hu : s.configured = false)
    (h : step s = .next t) :
    step (withRegs range asel f s) = .next t ∨
      t.configured = false ∧ step (withRegs range asel f s) = .next (withRegs range asel f t) := by
  have hcfg : ∀ {i}, s.seq ≠ .idle → decode s.cmdLatch = .cmd i → i.isConfigure = true := fun hs hd =>
    (busy_configured hi hs hd).resolve_right (by simp [hu])
  cases step_cases h with
  | reset es he => exact .inl (step_of_case (.reset es he))
  | notAccepted es he hn => exact .inr ⟨hu, step_of_case (.notAccepted es he hn)⟩
  | lateAnswer es d he ho => exact .inr ⟨hu, step_of_case (.lateAnswer es d he ho)⟩
  | illegalWord es w ws why he hs hw hd => exact .inr ⟨hu, step_of_case (.illegalWord es w ws why he hs hw hd)⟩
  | unconfigured es w ws i he hs hw hd hic hc => exact .inr ⟨hu, step_of_case (.unconfigured es w ws i he hs hw hd hic hc)⟩
  | issued es w ws i he hs hw hd hc =>
    cases i with
    | configure r a => exact .inr ⟨hu, step_of_case (.issued es w ws (.configure r a) he hs hw hd hc)⟩
    | powerOn | readAccel | selfTest | readOffset | writeOffset | readDevid => simp [hu, Instr.isConfigure] at hc
  | failed es x i he ho hs hd hne => exact .inr ⟨hu, step_of_case (.failed es x i he ho hs hd hne)⟩
  | done es x i b he ho hs hd hne =>
    have hc := hcfg (by simp [hs]) hd
    cases i with
    | configure r a => exact .inl (step_of_case (.done es x (.configure r a) b he ho hs hd hne))
    | powerOn | readAccel | selfTest | readOffset | writeOffset | readDevid => simp [Instr.isConfigure] at hc
  | enterOk _ _ _ _ _ hs hd | enterFail _ _ _ _ hs hd | captureOk _ _ _ _ _ hs hd | captureFail _ _ _ _ hs hd
  | restoreOk _ _ _ _ _ hs hd | restoreFail _ _ _ _ hs hd =>
    exact absurd (hcfg (by simp [hs]) hd) (by decide)

/-- Settles O27: the other values stay in the fields while the engine is unconfigured; CONFIGURE and reset overwrite them. -/
theorem unconfiguredValuesAreUnobservable : Obligations.UnconfiguredValuesAreUnobservable := by
  intro s t range asel x y z hi hu h
  rcases step_withRegs range asel ⟨x, y, z⟩ hi hu h with h' | ⟨ht, h'⟩
  · exact ⟨t.cfgRange, t.cfgAsel, t.filtX, t.filtY, t.filtZ, h', fun _ => rfl⟩
  · exact ⟨range, asel, x, y, z, h', fun hc => absurd (ht.symm.trans hc) (by decide)⟩

/-- Settles O28: the two tables at each of the four range codes. -/
theorem sensitivityAndScaleTable : Obligations.SensitivityAndScaleTable := by
  unfold Obligations.SensitivityAndScaleTable
  decide

/-- Settles O54: each field's value at reset. -/
theorem resetValues : Obligations.ResetValues := by
  unfold Obligations.ResetValues
  decide

end Sys2Proof.Machine
end

section
/-! What one micro-step does to the history (R55, R62), and the transactions it can issue (R60). -/

namespace Sys2Proof.Machine

theorem okState_history (p : Params) (i : Instr) (b : Six) (s : State) : (okState p i b s).history = s.history := by
  cases i <;> rfl

/-- What one micro-step leaves as the history: unchanged, a new pending transaction in front, or the pending head answered,
with or without the next transaction of SELF_TEST in front. -/
inductive HistoryCase (s t : State) : Prop where
  | kept : t.history = s.history → HistoryCase s t
  | accepted (es : List Event) (i : Instr) : s.events = .present :: es → s.seq = .idle →
      t.history = ⟨firstTxn Config.params i s, none⟩ :: s.history → HistoryCase s t
  | answered (es : List Event) (d : Draw) (x : Txn) : s.events = .answer d :: es → s.outTxn = some x →
      t.history = ⟨x, some (answerTo x d)⟩ :: s.history.tail → HistoryCase s t
  | continued (es : List Event) (d : Draw) (x y : Txn) : s.events = .answer d :: es → s.outTxn = some x →
      (y = dataTxn Config.params s ∨ y = restoreTxn Config.params s) →
      t.history = ⟨y, none⟩ :: ⟨x, some (answerTo x d)⟩ :: s.history.tail → HistoryCase s t

/-- `step_cases` read for the history alone. -/
theorem step_history {s t : State} (h : step s = .next t) : HistoryCase s t := by
  cases step_cases h with
  | reset | notAccepted | illegalWord | unconfigured | lateAnswer => exact .kept rfl
  | issued es w ws i he hs => exact .accepted es i he hs rfl
  | done es x i b he ho => exact .answered es (.ok b) x he ho (okState_history ..)
  | failed es x _ he ho | restoreFail es x he ho => exact .answered es .fail x he ho rfl
  | restoreOk es x b he ho => exact .answered es (.ok b) x he ho rfl
  | enterOk es x b he ho => exact .continued es (.ok b) x _ he ho (.inl rfl) rfl
  | captureOk es x b he ho => exact .continued es (.ok b) x _ he ho (.inr rfl) rfl
  | enterFail es x he ho | captureFail es x he ho => exact .continued es .fail x _ he ho (.inr rfl) rfl

/-- The head of the history that an answer replaces is pending, so every recorded answer is in the tail (R55). -/
theorem answered_mem_tail {s : State} (hi : Inv s) {x : Txn} (ho : s.outTxn = some x) {e : TxnEvent} (he : e ∈ s.history)
    (ha : e.answer ≠ none) : e ∈ s.history.tail := by
  obtain ⟨-, l, hl⟩ := outstanding_history hi ho
  rw [hl] at he ⊢
  rcases List.mem_cons.mp he with rfl | he
  · exact absurd rfl ha
  · exact he

/-- Settles O14: a new transaction comes from an idle engine or from an answer, and only a pending head is replaced. -/
theorem transactionsAreTotallyOrdered : Obligations.TransactionsAreTotallyOrdered := by
  intro s t hi h
  constructor
  · intro x hx
    cases step_history h with
    | kept ht => exact absurd hx.symm (by simp [txnsOf, ht])
    | accepted es i he hs => exact .inl (idle_latches hi hs).1
    | answered es d _ he | continued es d _ _ he => exact .inr ⟨d, es, he⟩
  · intro e he ha
    cases step_history h with
    | kept ht => exact ht ▸ he
    | accepted es i _ _ ht => exact ht ▸ .tail _ he
    | answered es d x _ ho ht => exact ht ▸ .tail _ (answered_mem_tail hi ho he ha)
    | continued es d x y _ ho _ ht => exact ht ▸ .tail _ (.tail _ (answered_mem_tail hi ho he ha))

/-- R22: the slave address is one of the two of R5. -/
theorem slaveAddr_cases (p : Params) (asel : BitVec 1) : slaveAddr p asel = p.addrLow ∨ slaveAddr p asel = p.addrHigh := by
  unfold slaveAddr
  split
  · exact .inl rfl
  · exact .inr rfl

/-- R121, R160: a range byte has range bits only. -/
theorem rangeByte_mask (rc : BitVec 2) : rangeByte rc &&& 0x7C#8 = 0#8 := by
  revert rc
  decide

/-- R160: the enter byte adds the self-test bit only. -/
theorem stEnterByte_mask (rc : BitVec 2) : stEnterByte rc &&& 0x7C#8 = 0#8 := by
  revert rc
  decide

/-- R60: a data-format write of range bits and the self-test bit is listed. -/
theorem dataFormatWrite_listed (p : Params) (asel : BitVec 1) {d : Byte} (hd : d &&& 0x7C#8 = 0#8) :
    (writeTxn (slaveAddr p asel) regDataFormat [d]).listed p :=
  ⟨slaveAddr_cases p asel, .inl ⟨d, rfl, hd⟩⟩

/-- R60: the six-byte data read is listed. -/
theorem dataTxn_listed (p : Params) (s : State) : (dataTxn p s).listed p :=
  ⟨slaveAddr_cases p s.cfgAsel, .inr (.inr (.inr (.inl rfl)))⟩

/-- R60, R160: the restoration write is listed. -/
theorem restoreTxn_listed (p : Params) (s : State) : (restoreTxn p s).listed p :=
  dataFormatWrite_listed p s.cfgAsel (rangeByte_mask s.cfgRange)

/-- R60: each command's first transaction is listed. -/
theorem firstTxn_listed (p : Params) (i : Instr) (s : State) : (firstTxn p i s).listed p := by
  have addr := slaveAddr_cases p s.cfgAsel
  cases i with
  | configure range asel => exact dataFormatWrite_listed p asel (rangeByte_mask range)
  | powerOn => exact ⟨addr, .inr (.inl rfl)⟩
  | readAccel => exact dataTxn_listed p s
  | selfTest => exact dataFormatWrite_listed p s.cfgAsel (stEnterByte_mask s.cfgRange)
  | readOffset => exact ⟨addr, .inr (.inr (.inr (.inr (.inl rfl))))⟩
  | writeOffset ox oy oz => exact ⟨addr, .inr (.inr (.inl ⟨ox, oy, oz, rfl⟩))⟩
  | readDevid => exact ⟨addr, .inr (.inr (.inr (.inr (.inr rfl))))⟩

/-- Settles O17: what a step issues is listed, and the transaction it answers was the pending head of the history. -/
theorem onlyListedTransactionsAreIssued : Obligations.OnlyListedTransactionsAreIssued := by
  intro s t hi hall h
  have pending_listed : ∀ {x}, s.outTxn = some x → x.listed Config.params := fun {x} ho => by
    obtain ⟨-, l, hl⟩ := outstanding_history hi ho
    exact hall ⟨x, none⟩ (by simp [hl])
  have tail_listed : ∀ e ∈ s.history.tail, e.txn.listed Config.params := fun e he => hall e (List.mem_of_mem_tail he)
  cases step_history h with
  | kept ht => exact ht ▸ hall
  | accepted es i _ _ ht => exact ht ▸ List.forall_mem_cons.mpr ⟨firstTxn_listed _ i s, hall⟩
  | answered es d x _ ho ht => exact ht ▸ List.forall_mem_cons.mpr ⟨pending_listed ho, tail_listed⟩
  | continued es d x y _ ho hy ht =>
    have hlisted : y.listed Config.params := by
      rcases hy with rfl | rfl
      · exact dataTxn_listed _ s
      · exact restoreTxn_listed _ s
    exact ht ▸ List.forall_mem_cons.mpr ⟨hlisted, List.forall_mem_cons.mpr ⟨pending_listed ho, tail_listed⟩⟩

end Sys2Proof.Machine
end

section
/-! The command word: its fields (R80 to R83), the decoder's cases (R85, R89), the opcode map (R84) and the offset operands of the
assembler (R91). -/

namespace Sys2Proof

theorem extractLsb'_append_middle {k m n : Nat} (a : BitVec k) (b : BitVec m) (c : BitVec n) :
    (a ++ (b ++ c)).extractLsb' n m = b :=
  (BitVec.extractLsb'_append_eq_of_add_le (by omega)).trans BitVec.extractLsb'_append_eq_left

theorem extractLsb'_append_low {k m n : Nat} (a : BitVec k) (b : BitVec m) (c : BitVec n) :
    (a ++ (b ++ c)).extractLsb' 0 n = c :=
  (BitVec.extractLsb'_append_eq_of_add_le (by omega)).trans BitVec.extractLsb'_append_eq_right

/-- R80: bits of the operand field are bits of the operand. -/
theorem extractLsb'_commandWord (o : BitVec 4) (d : BitVec 24) {k n : Nat} (h : k + n ≤ 24) :
    (commandWord o d).extractLsb' k n = d.extractLsb' k n :=
  (BitVec.extractLsb'_append_eq_of_add_le (xhi := o) (xlo := 0#4 ++ d) (by omega)).trans
    (BitVec.extractLsb'_append_eq_of_add_le h)

/-- R80: a word with `RSV = 0` is made of its opcode and its operand field. -/
theorem commandWord_of_fields {w : Word} {o : BitVec 4} {d : BitVec 24} (hrsv : rsvField w = 0#4) (hopc : opcField w = o)
    (hopnd : opndField w = d) : commandWord o d = w := by
  subst hopc hopnd
  calc commandWord (opcField w) (opndField w)
      = opcField w ++ (rsvField w ++ opndField w) := by rw [hrsv]; rfl
    _ = w.extractLsb' 28 4 ++ w.extractLsb' 0 28 :=
        congrArg _ (BitVec.extractLsb'_append_extractLsb'_eq_extractLsb' rfl)
    _ = w.extractLsb' 0 32 := BitVec.extractLsb'_append_extractLsb'_eq_extractLsb' rfl
    _ = w := BitVec.extractLsb'_eq_self

/-- R82: the operand field of format C. -/
theorem opndField_of_mbz {w : Word} (hmbz : mbzField w = 0#21) : opndField w = 0#21 ++ (aselField w ++ rangeField w) := by
  symm
  calc 0#21 ++ (aselField w ++ rangeField w)
      = mbzField w ++ w.extractLsb' 0 3 := by
        rw [hmbz]
        exact congrArg _ (BitVec.extractLsb'_append_extractLsb'_eq_extractLsb' rfl)
    _ = opndField w := BitVec.extractLsb'_append_extractLsb'_eq_extractLsb' rfl

/-- R83: the operand field of format O. -/
theorem opndField_formatO (w : Word) : opndField w = ozField w ++ (oyField w ++ oxField w) := by
  symm
  calc ozField w ++ (oyField w ++ oxField w)
      = w.extractLsb' 16 8 ++ w.extractLsb' 0 16 :=
        congrArg _ (BitVec.extractLsb'_append_extractLsb'_eq_extractLsb' rfl)
    _ = opndField w := BitVec.extractLsb'_append_extractLsb'_eq_extractLsb' rfl

/-- The opcode of each row of R84. -/
def Instr.opcode : Instr → BitVec 4
  | .configure _ _ => 0x1#4
  | .powerOn => 0x2#4
  | .readAccel => 0x3#4
  | .selfTest => 0x4#4
  | .readOffset => 0x5#4
  | .writeOffset _ _ _ => 0x6#4
  | .readDevid => 0x7#4

/-- The operand field of a command by its format (R81 to R83). -/
def Instr.operand : Instr → BitVec 24
  | .configure range asel => 0#21 ++ (asel ++ range)
  | .writeOffset ox oy oz => oz ++ (oy ++ ox)
  | .powerOn => 0#24
  | .readAccel => 0#24
  | .selfTest => 0#24
  | .readOffset => 0#24
  | .readDevid => 0#24

theorem encode_eq_commandWord (i : Instr) : encode i = commandWord i.opcode i.operand := by
  cases i <;> rfl

theorem encode_of_fields {w : Word} {i : Instr} (hrsv : rsvField w = 0#4) (hopc : opcField w = i.opcode)
    (hopnd : opndField w = i.operand) : encode i = w :=
  (encode_eq_commandWord i).trans (commandWord_of_fields hrsv hopc hopnd)

@[simp] theorem rsvField_encode (i : Instr) : rsvField (encode i) = 0#4 := by
  rw [encode_eq_commandWord, rsvField_commandWord]

@[simp] theorem opcField_encode (i : Instr) : opcField (encode i) = i.opcode := by
  rw [encode_eq_commandWord, opcField_commandWord]

@[simp] theorem opndField_encode (i : Instr) : opndField (encode i) = i.operand := by
  rw [encode_eq_commandWord, opndField_commandWord]

/-- Bits of an encoding below bit 24 are bits of its operand. -/
theorem extractLsb'_encode (i : Instr) {k n : Nat} (h : k + n ≤ 24) :
    (encode i).extractLsb' k n = i.operand.extractLsb' k n := by
  rw [encode_eq_commandWord, extractLsb'_commandWord _ _ h]

section Operands

variable (range : BitVec 2) (asel : BitVec 1) (ox oy oz : Byte)

@[simp] theorem mbzField_encode : mbzField (encode (.configure range asel)) = 0#21 :=
  (extractLsb'_encode _ (by decide)).trans BitVec.extractLsb'_append_eq_left

@[simp] theorem aselField_encode : aselField (encode (.configure range asel)) = asel :=
  (extractLsb'_encode _ (by decide)).trans (extractLsb'_append_middle ..)

@[simp] theorem rangeField_encode : rangeField (encode (.configure range asel)) = range :=
  (extractLsb'_encode _ (by decide)).trans (extractLsb'_append_low ..)

@[simp] theorem ozField_encode : ozField (encode (.writeOffset ox oy oz)) = oz :=
  (extractLsb'_encode _ (by decide)).trans BitVec.extractLsb'_append_eq_left

@[simp] theorem oyField_encode : oyField (encode (.writeOffset ox oy oz)) = oy :=
  (extractLsb'_encode _ (by decide)).trans (extractLsb'_append_middle ..)

@[simp] theorem oxField_encode : oxField (encode (.writeOffset ox oy oz)) = ox :=
  (extractLsb'_encode _ (by decide)).trans (extractLsb'_append_low ..)

end Operands

/-- The fields that `decode` tests and reads are the ones the encoder wrote. -/
theorem decode_encode (i : Instr) : decode (encode i) = .cmd i := by
  cases i with
  | configure | writeOffset => simp [decode, Instr.opcode]
  | powerOn | readAccel | selfTest | readOffset | readDevid => simp [decode, decodeN, Instr.opcode, Instr.operand]

/-- Settles O1: the operand types hold the legal values only. -/
theorem decodeOfEncodeIsIdentity : Obligations.DecodeOfEncodeIsIdentity := fun i =>
  ⟨by cases i <;> rfl, decode_encode i⟩

/-- The commands of format N (R81). -/
def formatN : List Instr := [.powerOn, .readAccel, .selfTest, .readOffset, .readDevid]

/-- The outcomes of R85 with the tests that lead to each. -/
inductive DecodeCase (w : Word) : Decoded → Prop where
  | reservedField : rsvField w ≠ 0#4 → DecodeCase w (.illegal .reservedField)
  | configure : rsvField w = 0#4 → opcField w = 0x1#4 → mbzField w = 0#21 →
      DecodeCase w (.cmd (.configure (rangeField w) (aselField w)))
  | mbzNotZero : opcField w = 0x1#4 → mbzField w ≠ 0#21 → DecodeCase w (.illegal .mbzNotZero)
  | noOperand (i : Instr) : i ∈ formatN → rsvField w = 0#4 → opcField w = i.opcode → opndField w = 0#24 →
      DecodeCase w (.cmd i)
  | operandNotZero (i : Instr) : i ∈ formatN → opcField w = i.opcode → opndField w ≠ 0#24 →
      DecodeCase w (.illegal .operandNotZero)
  | writeOffset : rsvField w = 0#4 → opcField w = 0x6#4 →
      DecodeCase w (.cmd (.writeOffset (oxField w) (oyField w) (ozField w)))
  | reservedOpcode : opcField w = 0x0#4 ∨ 0x8#4 ≤ opcField w → DecodeCase w (.illegal .reservedOpcode)

theorem decodeN_cases {w : Word} {i : Instr} (hi : i ∈ formatN) (hrsv : rsvField w = 0#4) (hopc : opcField w = i.opcode) :
    DecodeCase w (decodeN i w) := by
  unfold decodeN
  split
  · exact .noOperand i hi hrsv hopc ‹_›
  · exact .operandNotZero i hi hopc ‹_›

/-- R84: an opcode that no row has is 0x0 or 0x8 to 0xF. -/
theorem reserved_of_noRow {o : BitVec 4} (h : ∀ n ∈ [0x1#4, 0x2#4, 0x3#4, 0x4#4, 0x5#4, 0x6#4, 0x7#4], o ≠ n) :
    o = 0x0#4 ∨ 0x8#4 ≤ o := by
  revert o
  decide

theorem decode_cases (w : Word) : DecodeCase w (decode w) := by
  unfold decode
  rw [ite_not]
  split_ifs with hrsv h1 hmbz h2 h3 h4 h5 h6 h7
  · exact .configure hrsv h1 hmbz
  · exact .mbzNotZero h1 hmbz
  · exact decodeN_cases (by decide) hrsv h2
  · exact decodeN_cases (by decide) hrsv h3
  · exact decodeN_cases (by decide) hrsv h4
  · exact decodeN_cases (by decide) hrsv h5
  · exact .writeOffset hrsv h6
  · exact decodeN_cases (by decide) hrsv h7
  · exact .reservedOpcode (reserved_of_noRow (by simp [h1, h2, h3, h4, h5, h6, h7]))
  · exact .reservedField hrsv

/-- Settles O2: the tests that lead to a command fix the three fields of the word. -/
theorem eachCommandHasOneWord : Obligations.EachCommandHasOneWord := by
  intro w i h
  have hcase := h ▸ decode_cases w
  cases hcase with
  | configure hrsv hopc hmbz => exact encode_of_fields hrsv hopc (opndField_of_mbz hmbz)
  | noOperand _ hi hrsv hopc hopnd =>
    have hzero : ∀ i ∈ formatN, i.operand = 0#24 := by decide
    exact encode_of_fields hrsv hopc (hopnd.trans (hzero i hi).symm)
  | writeOffset hrsv hopc => exact encode_of_fields hrsv hopc (opndField_formatO w)

theorem decode_eq_cmd_iff {w : Word} {i : Instr} : decode w = .cmd i ↔ w = encode i :=
  ⟨fun h => (eachCommandHasOneWord w i h).symm, fun h => h ▸ decode_encode i⟩

/-- A field inside a row's mask is the pattern's field in every word that the row selects (R84). -/
theorem extractLsb'_of_masked {w mask pattern : Word} {k n : Nat} (h : w &&& mask = pattern)
    (hm : mask.extractLsb' k n = BitVec.allOnes n) : w.extractLsb' k n = pattern.extractLsb' k n := by
  rw [← h, BitVec.extractLsb'_and, hm, BitVec.and_allOnes]

/-- R84, CONFIGURE's row: it selects the encodings of its command, at the operands that are the word's fields. -/
theorem eq_encode_configure_iff {w : Word} {range : BitVec 2} {asel : BitVec 1} : w = encode (.configure range asel) ↔
    w &&& 0xFFFFFFF8#32 = 0x10000000#32 ∧ range = rangeField w ∧ asel = aselField w := by
  constructor
  · rintro rfl
    exact ⟨eq_of_beq (Laws.EncodingSelectsItsRow.configure range asel), (rangeField_encode ..).symm, (aselField_encode ..).symm⟩
  · rintro ⟨hrow, rfl, rfl⟩
    have hrsv : rsvField w = 0#4 := extractLsb'_of_masked hrow (by decide)
    have hopc : opcField w = 0x1#4 := extractLsb'_of_masked hrow (by decide)
    have hmbz : mbzField w = 0#21 := extractLsb'_of_masked hrow (by decide)
    exact (encode_of_fields (i := .configure _ _) hrsv hopc (opndField_of_mbz hmbz)).symm

/-- R84, WRITE_OFFSET's row. -/
theorem eq_encode_writeOffset_iff {w : Word} {ox oy oz : Byte} : w = encode (.writeOffset ox oy oz) ↔
    w &&& 0xFF000000#32 = 0x60000000#32 ∧ ox = oxField w ∧ oy = oyField w ∧ oz = ozField w := by
  constructor
  · rintro rfl
    exact ⟨eq_of_beq (Laws.EncodingSelectsItsRow.writeOffset ox oy oz), (oxField_encode ..).symm, (oyField_encode ..).symm,
      (ozField_encode ..).symm⟩
  · rintro ⟨hrow, rfl, rfl, rfl⟩
    have hrsv : rsvField w = 0#4 := extractLsb'_of_masked hrow (by decide)
    have hopc : opcField w = 0x6#4 := extractLsb'_of_masked hrow (by decide)
    exact (encode_of_fields (i := .writeOffset _ _ _) hrsv hopc (opndField_formatO w)).symm

/-- R84: a row of format N masks no bit. -/
theorem and_fullMask (w : Word) : w &&& 0xFFFFFFFF#32 = w := BitVec.and_allOnes

/-- Settles O3: a word decodes to a command when it is the command's encoding; a row of format N has one word. -/
theorem decodesExactlyWhenRowMatches : Obligations.DecodesExactlyWhenRowMatches := by
  intro w i
  rw [decode_eq_cmd_iff]
  cases i with
  | configure => exact eq_encode_configure_iff
  | writeOffset => exact eq_encode_writeOffset_iff
  | powerOn | readAccel | selfTest | readOffset | readDevid =>
    simp only [and_fullMask]
    rfl

/-- Settles O4: every mask covers the opcode bits, and the seven opcodes differ. -/
theorem atMostOneRowMatches : Obligations.AtMostOneRowMatches := by
  intro w r r' hr hr' hs hs'
  have hcovers : ∀ r ∈ opcodeMap, opcField r.mask = BitVec.allOnes 4 := by decide
  have hopc : ∀ r ∈ opcodeMap, r.selects w = true → opcField w = opcField r.pattern := fun r hr hs =>
    extractLsb'_of_masked (eq_of_beq hs) (hcovers r hr)
  have hdistinct : (opcodeMap.map fun r => opcField r.pattern).Nodup := by decide
  exact List.inj_on_of_nodup_map hdistinct hr hr' ((hopc r hr hs).symm.trans (hopc r' hr' hs'))

/-- Settles O5: each of the words evaluated. -/
theorem sampleWordsDecode : Obligations.SampleWordsDecode := by
  unfold Obligations.SampleWordsDecode
  decide

/-- R89: the four cases of an illegal word, and no command is in one of them. -/
theorem decode_illegal_iff (w : Word) : (∃ why, decode w = .illegal why) ↔
    ((opcField w = 0x0#4 ∨ 0x8#4 ≤ opcField w) ∨
     rsvField w ≠ 0#4 ∨
     (opcField w ∈ [0x2#4, 0x3#4, 0x4#4, 0x5#4, 0x7#4] ∧ opndField w ≠ 0#24) ∨
     (opcField w = 0x1#4 ∧ mbzField w ≠ 0#21)) := by
  have hN : ∀ i ∈ formatN, i.opcode ∈ [0x2#4, 0x3#4, 0x4#4, 0x5#4, 0x7#4] := by decide
  have hcase := decode_cases w
  generalize decode w = r at hcase
  cases hcase with
  | reservedField hrsv => exact iff_of_true ⟨_, rfl⟩ (.inr (.inl hrsv))
  | mbzNotZero hopc hmbz => exact iff_of_true ⟨_, rfl⟩ (.inr (.inr (.inr ⟨hopc, hmbz⟩)))
  | operandNotZero i hi hopc hopnd => exact iff_of_true ⟨_, rfl⟩ (.inr (.inr (.inl ⟨hopc ▸ hN i hi, hopnd⟩)))
  | reservedOpcode hopc => exact iff_of_true ⟨_, rfl⟩ (.inl hopc)
  | configure hrsv hopc hmbz => simp [hrsv, hopc, hmbz]
  | writeOffset hrsv hopc => simp [hrsv, hopc]
  | noOperand i hi hrsv hopc hopnd =>
    have hrow : ∀ i ∈ formatN, i.opcode ≠ 0x0#4 ∧ ¬ 0x8#4 ≤ i.opcode ∧ i.opcode ≠ 0x1#4 := by decide
    obtain ⟨h0, h8, h1⟩ := hrow i hi
    simp [hrsv, hopc, hopnd, h0, h8, h1]

end Sys2Proof

namespace Sys2Proof.Machine

/-- Settles O10: the accept step of an illegal word only emits the response, and an idle engine's latches are already clear. -/
theorem illegalWordsAreRefused : Obligations.IllegalWordsAreRefused := by
  refine ⟨decode_illegal_iff, fun s w ws es why ho hd => ?_⟩
  rw [step_offered_illegal ho hd, finished_idle ho.inv ho.idle]
  rfl

/-- R91: a decimal stands for the byte of that signed value. -/
theorem asmByte_dec {v : Int} {b : Byte} : asmByte (.dec v) = some b ↔ b.toInt = v := by
  simp only [asmByte, Option.ite_none_right_eq_some, Option.some.injEq]
  constructor
  · rintro ⟨⟨hlo, hhi⟩, rfl⟩
    exact BitVec.toInt_ofInt_eq_self (by decide) hlo (by omega)
  · rintro rfl
    have hlo : -2 ^ 7 ≤ b.toInt := b.le_toInt
    have hhi : b.toInt < 2 ^ 7 := b.toInt_lt
    exact ⟨by omega, BitVec.ofInt_toInt⟩

/-- R91: a hexadecimal number stands for the byte of that value. -/
theorem asmByte_hex {v : Nat} {b : Byte} : asmByte (.hex v) = some b ↔ b.toNat = v := by
  simp only [asmByte, Option.ite_none_right_eq_some, Option.some.injEq]
  constructor
  · rintro ⟨hv, rfl⟩
    exact Nat.mod_eq_of_lt (by omega)
  · rintro rfl
    exact ⟨Nat.le_of_lt_succ b.isLt, by simp⟩

/-- The byte `b` stands for the offset operand `n`: a signed decimal, or a hexadecimal byte (R91). -/
def AsmNumber.denotes (n : AsmNumber) (b : Byte) : Prop :=
  match n with
  | .dec v => b.toInt = v
  | .hex v => b.toNat = v

theorem asmByte_eq_some_iff (n : AsmNumber) (b : Byte) : asmByte n = some b ↔ n.denotes b := by
  cases n with
  | dec v => exact asmByte_dec
  | hex v => exact asmByte_hex

/-- R83, R91: a WRITE_OFFSET line assembles exactly when each operand has a byte. -/
theorem assemble_writeOffset {x y z : AsmNumber} {w : Word} : assemble (.writeOffset x y z) = some w ↔
    ∃ ox oy oz, asmByte x = some ox ∧ asmByte y = some oy ∧ asmByte z = some oz ∧ w = encode (.writeOffset ox oy oz) := by
  simp only [assemble]
  split
  · rename_i hx hy hz
    simp [hx, hy, hz, eq_comm]
  · rename_i hnone
    exact iff_of_false (by simp) fun ⟨ox, oy, oz, hx, hy, hz, _⟩ => hnone ox oy oz hx hy hz

/-- Settles O6: an operand's byte is the one its number denotes, and the line's word is the encoding of the three bytes. -/
theorem assemblerOffsetOperands : Obligations.AssemblerOffsetOperands := by
  refine ⟨asmByte_eq_some_iff, fun v => by simp [asmByte], fun v => by simp [asmByte], fun x y z w => ?_⟩
  simp only [assemble_writeOffset, asmByte_eq_some_iff]
  constructor
  · rintro ⟨ox, oy, oz, hx, hy, hz, rfl⟩
    exact ⟨ox, oy, oz, hx, hy, hz, rfl, decode_encode _⟩
  · rintro ⟨ox, oy, oz, hx, hy, hz, hw, -⟩
    exact ⟨ox, oy, oz, hx, hy, hz, hw⟩

end Sys2Proof.Machine
end

section
/-! The responses of one micro-step (R87, R88, R105). -/

namespace Sys2Proof.Machine

/-- What an `Ok` answer completes with (R120, R122, R145, R200 to R202): code OK and no flag, after writes that emit nothing. -/
theorem okState_eq_complete {i : Instr} (hi : i ≠ .selfTest) (p : Params) (b : Six) (s : State) :
    ∃ d0 d1 d2 u, okState p i b s = complete .ok 0#3 d0 d1 d2 u ∧ u.history = s.history ∧ u.responses = s.responses := by
  cases i with
  | selfTest => exact absurd rfl hi
  | configure | powerOn | readAccel | readOffset | writeOffset | readDevid => exact ⟨_, _, _, _, rfl, rfl, rfl⟩

/-- What one micro-step adds to the responses: none, or one without a flag, or the failure of a one-transaction command, or the
completion of SELF_TEST. -/
inductive ResponseCase (s t : State) : Prop where
  | kept : t.responses = s.responses → ResponseCase s t
  | noFlag (c : Code) (d0 d1 d2 : Word) : c ≠ .transportFail → t.responses = responseOf c 0#3 d0 d1 d2 :: s.responses →
      ResponseCase s t
  | failed : s.seq = .xfer →
      t.responses = responseOf .transportFail (s.failLatch ||| failMain) 0#32 0#32 0#32 :: s.responses → ResponseCase s t
  | selfTest (f : BitVec 3) (d0 d1 d2 : Word) : decode s.cmdLatch = .cmd .selfTest →
      t.responses = responseOf (codeOf f) f d0 d1 d2 :: s.responses → ResponseCase s t

/-- `step_cases` read for the responses alone. -/
theorem step_response {s t : State} (h : step s = .next t) : ResponseCase s t := by
  cases step_cases h with
  | reset | notAccepted | issued | lateAnswer | enterOk | enterFail | captureOk | captureFail => exact .kept rfl
  | illegalWord => exact .noFlag .illegalCommand _ _ _ (by decide) rfl
  | unconfigured => exact .noFlag .notConfigured _ _ _ (by decide) rfl
  | failed es x i _ _ hs => exact .failed hs rfl
  | done es x i b _ _ _ _ hi =>
    obtain ⟨d0, d1, d2, u, hok, -, hr⟩ := okState_eq_complete hi Config.params b (answering x (.ok b) es s)
    exact .noFlag .ok d0 d1 d2 (by decide) (by rw [hok, complete_responses, hr]; rfl)
  | restoreOk es x b _ _ _ hd => exact .selfTest _ _ _ _ hd rfl
  | restoreFail es x _ _ _ hd => exact .selfTest _ _ _ _ hd rfl

section ResponseOf

variable (c : Code) (f : BitVec 3) (d0 d1 d2 : Word)

@[simp] theorem responseOf_code : (responseOf c f d0 d1 d2).code = c.bits :=
  extractLsb'_append_low 0#1 f c.bits

@[simp] theorem responseOf_flags : (responseOf c f d0 d1 d2).flags = f :=
  extractLsb'_append_middle 0#1 f c.bits

/-- R105: STATUS bit 7 is 0. -/
theorem responseOf_bit7 : (responseOf c f d0 d1 d2).status.getLsbD 7 = false := by
  change (0#1 ++ (f ++ c.bits) : BitVec (1 + (3 + 4))).getLsbD 7 = false
  rw [BitVec.getLsbD_append]
  simp

/-- R105, R87: STATUS bits 6:4 are the flags. -/
theorem responseOf_flagBit {k : Nat} (hk : k < 3) : (responseOf c f d0 d1 d2).status.getLsbD (4 + k) = f.getLsbD k := by
  have hbit := congrArg (·.getLsbD k) (responseOf_flags c f d0 d1 d2)
  simpa [Response.flags, hk] using hbit

end ResponseOf

/-- R87, R88: a response is legal when its code is TRANSPORT_FAIL exactly with a flag set. -/
theorem responseOf_legal {c : Code} {f : BitVec 3} (h : c = .transportFail ↔ f ≠ 0#3) (d0 d1 d2 : Word) :
    (responseOf c f d0 d1 d2).legal := by
  refine ⟨responseOf_bit7 .., ?_, ?_, ?_⟩
  · rw [responseOf_code]
    cases c <;> decide
  · rw [responseOf_code, responseOf_flags, ← h]
    cases c <;> decide
  · rw [responseOf_code]
    intro hc
    have hne : c ≠ .ok := by
      rintro rfl
      exact hc rfl
    simp [responseOf, dataWord, hne]

theorem codeOf_eq_transportFail (f : BitVec 3) : codeOf f = .transportFail ↔ f ≠ 0#3 := by
  simp [codeOf]

theorem or_failMain_ne_zero (f : BitVec 3) : f ||| failMain ≠ 0#3 := by
  revert f
  decide

/-- Settles O15: the step adds no response, or one whose code agrees with its flags. -/
theorem emittedResponsesAreLegal : Obligations.EmittedResponsesAreLegal := by
  intro s t hall h
  cases step_response h with
  | kept ht => exact ht ▸ hall
  | noFlag c d0 d1 d2 hc ht => exact ht ▸ List.forall_mem_cons.mpr ⟨responseOf_legal (by simp [hc]) d0 d1 d2, hall⟩
  | failed hs ht => exact ht ▸ List.forall_mem_cons.mpr ⟨responseOf_legal (iff_of_true rfl (or_failMain_ne_zero _)) _ _ _, hall⟩
  | selfTest f d0 d1 d2 _ ht =>
    exact ht ▸ List.forall_mem_cons.mpr ⟨responseOf_legal (codeOf_eq_transportFail f) d0 d1 d2, hall⟩

/-- Bits 5 and 6 of STATUS are the flags FAIL_CAPTURE and FAIL_RESTORE (R87). -/
theorem responseOf_noCaptureRestore {f : BitVec 3} (hf : f = 0#3 ∨ f = failMain) (c : Code) (d0 d1 d2 : Word) :
    (responseOf c f d0 d1 d2).status.getLsbD 5 = false ∧ (responseOf c f d0 d1 d2).status.getLsbD 6 = false := by
  rw [responseOf_flagBit c f d0 d1 d2 (k := 1) (by decide), responseOf_flagBit c f d0 d1 d2 (k := 2) (by decide)]
  rcases hf with rfl | rfl <;> decide

/-- Settles O16: a one-transaction command's failure latch was clear, so its failure sets FAIL_MAIN alone. -/
theorem captureAndRestoreFlagsOnlyFromSelfTest : Obligations.CaptureAndRestoreFlagsOnlyFromSelfTest := by
  intro s t r hi h hr hne
  cases step_response h with
  | kept ht => exact absurd (hr.symm.trans ht) (by simp)
  | noFlag c d0 d1 d2 _ ht =>
    obtain rfl : r = responseOf c 0#3 d0 d1 d2 := (List.cons.inj (hr.symm.trans ht)).1
    exact responseOf_noCaptureRestore (.inl rfl) c d0 d1 d2
  | failed hs ht =>
    obtain ⟨⟨hfail, -⟩, -⟩ := (phaseInv_xfer hs).mp hi.phase
    obtain rfl := (List.cons.inj (hr.symm.trans ht)).1
    exact responseOf_noCaptureRestore (.inr (by rw [hfail]; rfl)) _ _ _ _
  | selfTest f d0 d1 d2 hd => exact absurd hd hne

/-- From `s` to `t` one transaction is issued, and the engine is busy (R103, R161). -/
def issuesOne (s t : State) : Prop :=
  t.seq ≠ .idle ∧ (∃ x, t.outTxn = some x ∧ txnsOf t = x :: txnsOf s) ∧ t.responses = s.responses

/-- From `s` to `t` one response is emitted, and the engine is idle (R105). -/
def completesOne (s t : State) : Prop :=
  t.seq = .idle ∧ t.outTxn = none ∧ txnsOf t = txnsOf s ∧ ∃ r, t.responses = r :: s.responses

/-- An answer is recorded at its transaction: the transactions stay (R55). -/
theorem txnsOf_answering {s : State} (hi : Inv s) {x : Txn} (ho : s.outTxn = some x) (d : Draw) (es : List Event) :
    txnsOf (answering x d es s) = txnsOf s := by
  obtain ⟨-, l, hl⟩ := outstanding_history hi ho
  simp [txnsOf, answering, hl]

section

variable {s u : State} (htxns : txnsOf u = txnsOf s) (hresp : u.responses = s.responses)
include htxns hresp

theorem issuesOne_issue {ph : Phase} (hph : ph ≠ .idle) (x : Txn) : issuesOne s (issue ph x u) :=
  ⟨hph, ⟨x, rfl, congrArg (x :: ·) htxns⟩, hresp⟩

theorem completesOne_complete (c : Code) (f : BitVec 3) (d0 d1 d2 : Word) : completesOne s (complete c f d0 d1 d2 u) :=
  ⟨rfl, rfl, htxns, _, congrArg (_ :: ·) hresp⟩

end

/-- Settles O13: the accept step issues or refuses; an answer goes on to SELF_TEST's next transaction or completes. -/
theorem microStepIssuesOrCompletes : Obligations.MicroStepIssuesOrCompletes := by
  intro s t hi h hmoves
  change issuesOne s t ∨ completesOne s t
  cases step_cases h with
  | reset es he => simp [he] at hmoves
  | notAccepted es he hn =>
    rcases hmoves with ⟨-, hs, hw⟩ | ⟨⟨d, es', he'⟩, -⟩
    · exact absurd hn (by simp [hs, hw])
    · simp [he] at he'
  | lateAnswer es d he ho => simp [he, ho] at hmoves
  | illegalWord | unconfigured => exact .inr (completesOne_complete rfl rfl ..)
  | issued es w ws i => exact .inl (issuesOne_issue (u := accepting w ws es s) rfl rfl (by split <;> decide) _)
  | enterOk es x b _ ho | enterFail es x _ ho | captureOk es x b _ ho | captureFail es x _ ho =>
    exact .inl (issuesOne_issue (txnsOf_answering hi ho _ es) rfl (by decide) _)
  | done es x i b _ ho _ _ hne =>
    obtain ⟨d0, d1, d2, u, hok, hh, hr⟩ := okState_eq_complete hne Config.params b (answering x (.ok b) es s)
    rw [hok]
    exact .inr (completesOne_complete ((congrArg _ hh).trans (txnsOf_answering hi ho (.ok b) es)) hr ..)
  | failed es x _ _ ho | restoreOk es x _ _ ho | restoreFail es x _ ho =>
    exact .inr (completesOne_complete (txnsOf_answering hi ho _ es) rfl ..)

end Sys2Proof.Machine
end

section
/-! The command engine over one micro-step and over a whole command (R101 to R107), and its agreement with the big-step view. -/

namespace Sys2Proof.Machine

/-- Settles O7: the dispatch of `step_accepting`, its state written out. -/
theorem acceptStepRunsDecodedCommand : Obligations.AcceptStepRunsDecodedCommand := fun _ _ _ _ _ hs hw he hd =>
  step_accepting he hs hw hd

/-- Settles O8: the continuation of `step_answering`; the pending head of the history is the one replaced. -/
theorem answerStepRunsLatchedCommand : Obligations.AnswerStepRunsLatchedCommand := by
  intro s x d es i h hs ho hh he hd
  rw [step_answering he ho hs hd]
  simp only [answering, takeAnswer, hh, List.tail_cons]

/-- Settles O9: a word presented to a busy engine is not accepted. -/
theorem busyPortAcceptsNoWord : Obligations.BusyPortAcceptsNoWord := fun _ es hs he =>
  step_of_case (.notAccepted es he (.inl hs))

/-- Settles O11: the refusal only emits the response, and an idle engine's latches are already clear. -/
theorem unconfiguredCommandIsRefused : Obligations.UnconfiguredCommandIsRefused := by
  intro s w ws es i ho hc hd hi
  rw [step_offered_refused ho hd hi hc, finished_idle ho.inv ho.idle]
  rfl

/-- Settles O12: the history gains at most one pending head, and the responses at most one. -/
theorem microStepIssuesAndEmitsAtMostOne : Obligations.MicroStepIssuesAndEmitsAtMostOne := by
  intro s t hi h
  constructor
  · cases step_history h with
    | kept ht => exact .inl (congrArg (List.map TxnEvent.txn) ht)
    | accepted es i _ _ ht => exact .inr ⟨_, congrArg _ ht⟩
    | answered es d x _ ho ht => exact .inl ((congrArg _ ht).trans (txnsOf_answering hi ho d es))
    | continued es d x y _ ho _ ht =>
      exact .inr ⟨y, (congrArg _ ht).trans (congrArg (y :: ·) (txnsOf_answering hi ho d es))⟩
  · cases step_response h with
    | kept ht => exact .inl ht
    | noFlag _ _ _ _ _ ht | failed _ ht | selfTest _ _ _ _ _ ht => exact .inr ⟨_, ht⟩

/-- A presented word is a step whatever it is: accepted, refused, or left with the host (R101, R103). -/
theorem step_enabled_of_present {s : State} {es : List Event} (he : s.events = .present :: es) : ∃ t, step s = .next t := by
  by_cases hs : s.seq = .idle
  · cases hw : s.hostWords with
    | nil => exact ⟨_, step_of_case (.notAccepted es he (.inr hw))⟩
    | cons w ws =>
      cases hd : decode w with
      | illegal why => exact ⟨_, step_of_case (.illegalWord es w ws why he hs hw hd)⟩
      | cmd i =>
        by_cases hc : i.isConfigure = true ∨ s.configured = true
        · exact ⟨_, step_of_case (.issued es w ws i he hs hw hd hc)⟩
        · simp only [not_or, Bool.not_eq_true] at hc
          exact ⟨_, step_of_case (.unconfigured es w ws i he hs hw hd hc.1 hc.2)⟩
  · exact ⟨_, step_of_case (.notAccepted es he (.inl hs))⟩

/-- Every phase of a busy engine belongs to its latched command, which continues with any answer (R104). -/
theorem step_enabled_of_answer {s : State} {d : Draw} {es : List Event} (hi : Inv s) (he : s.events = .answer d :: es) :
    ∃ t, step s = .next t := by
  cases ho : s.outTxn with
  | none => exact ⟨_, step_of_case (.lateAnswer es d he ho)⟩
  | some x =>
    have hp := hi.phase
    cases hs : s.seq with
    | idle => exact absurd hs (outstanding_history hi ho).1
    | xfer =>
      obtain ⟨-, i, hd, hne, -⟩ := (phaseInv_xfer hs).mp hp
      cases d with
      | fail => exact ⟨_, step_of_case (.failed es x i he ho hs hd hne)⟩
      | ok b => exact ⟨_, step_of_case (.done es x i b he ho hs hd hne)⟩
    | stEnter =>
      obtain ⟨⟨hd, -⟩, -⟩ := (phaseInv_stEnter hs).mp hp
      cases d with
      | fail => exact ⟨_, step_of_case (.enterFail es x he ho hs hd)⟩
      | ok b => exact ⟨_, step_of_case (.enterOk es x b he ho hs hd)⟩
    | stCapture =>
      obtain ⟨⟨hd, -⟩, -⟩ := (phaseInv_stCapture hs).mp hp
      cases d with
      | fail => exact ⟨_, step_of_case (.captureFail es x he ho hs hd)⟩
      | ok b => exact ⟨_, step_of_case (.captureOk es x b he ho hs hd)⟩
    | stRestore =>
      obtain ⟨⟨hd, -⟩, -⟩ := (phaseInv_stRestore hs).mp hp
      cases d with
      | fail => exact ⟨_, step_of_case (.restoreFail es x he ho hs hd)⟩
      | ok b => exact ⟨_, step_of_case (.restoreOk es x b he ho hs hd)⟩

/-- Settles O20: without an event the model stops by definition; each kind of event is a step. -/
theorem stopsExactlyWhenNoEventComes : Obligations.StopsExactlyWhenNoEventComes := by
  intro s hi
  refine ⟨fun he => by simp only [step, microStep, he], fun hne => ?_⟩
  cases he : s.events with
  | nil => exact absurd he hne
  | cons e es =>
    cases e with
    | present => exact step_enabled_of_present he
    | answer d => exact step_enabled_of_answer hi he
    | reset => exact ⟨_, step_of_case (.reset es he)⟩

/-- Settles O21: of the micro-steps of a busy engine, only the unaccepted word consumes neither an answer nor a reset. -/
theorem onlyAnswerOrResetLeavesAPhase : Obligations.OnlyAnswerOrResetLeavesAPhase := by
  intro s t _ hbusy h hanswer hreset
  cases step_cases h with
  | notAccepted es he hn => exact ⟨rfl, rfl, rfl⟩
  | reset es he => exact absurd he (hreset es)
  | illegalWord _ _ _ _ _ hs | unconfigured _ _ _ _ _ hs | issued _ _ _ _ _ hs => exact absurd hs hbusy
  | lateAnswer _ _ he | failed _ _ _ he | done _ _ _ _ he | enterOk _ _ _ he | enterFail _ _ he | captureOk _ _ _ he
  | captureFail _ _ he | restoreOk _ _ _ he | restoreFail _ _ he => exact absurd he (hanswer _ _)

section BigStep

variable {p : Params} {w : Word} {ds : List Draw} {s : State}

/-- R89, R106: an illegal word is answered at once. -/
theorem bigStep_illegal {why : Illegal} (hd : decode w = .illegal why) :
    bigStep p w ds s = some ⟨s, responseOf .illegalCommand 0#3 0#32 0#32 0#32, []⟩ := by
  simp only [bigStep, hd]

/-- R103, R106: a command that needs a configured engine is answered at once without one. -/
theorem bigStep_refused {i : Instr} (hd : decode w = .cmd i) (hi : i.isConfigure = false) (hc : s.configured = false) :
    bigStep p w ds s = some ⟨s, responseOf .notConfigured 0#3 0#32 0#32 0#32, []⟩ := by
  simp [bigStep, hd, hi, hc]

/-- R103, R106: any other command runs its pseudocode. -/
theorem bigStep_dispatched {i : Instr} (hd : decode w = .cmd i) (hc : i.isConfigure = true ∨ s.configured = true) :
    bigStep p w ds s = bigCommand p i ds s := by
  simp [bigStep, hd, hc]

/-- R107: every command but SELF_TEST needs one answer and has one transaction. -/
theorem bigCommand_oneTransaction {i : Instr} (hi : i ≠ .selfTest) (d : Draw) :
    ∃ r e, bigCommand p i (d :: ds) s = some r ∧ r.txns = [e] := by
  cases i with
  | selfTest => exact absurd rfl hi
  | configure | powerOn | readAccel | readOffset | writeOffset | readDevid => cases d <;> exact ⟨_, _, rfl, rfl⟩

theorem bigCommand_noAnswer {i : Instr} (hi : i ≠ .selfTest) : bigCommand p i [] s = none := by
  cases i with
  | selfTest => exact absurd rfl hi
  | configure | powerOn | readAccel | readOffset | writeOffset | readDevid => rfl

/-- R107, R162: three answers are enough for SELF_TEST, which has at most three transactions. -/
theorem bigSelfTest_threeAnswers (d1 d2 d3 : Draw) :
    ∃ r, bigSelfTest p s [d1, d2, d3] = some r ∧ r.txns.length ≤ 3 := by
  cases d1 with
  | fail => exact ⟨_, rfl, by simp [bigRestore]⟩
  | ok b1 => cases d2 <;> exact ⟨_, rfl, by simp [bigRestore]⟩

/-- R107, in the big-step view: three answers are enough for every word. -/
theorem bigStep_threeAnswers (p : Params) (w : Word) (d1 d2 d3 : Draw) (s : State) :
    ∃ r, bigStep p w [d1, d2, d3] s = some r ∧ r.txns.length ≤ 3 ∧ (decode w ≠ .cmd .selfTest → r.txns.length ≤ 1) := by
  cases hd : decode w with
  | illegal why => exact ⟨_, bigStep_illegal hd, by simp⟩
  | cmd i =>
    by_cases hc : i.isConfigure = true ∨ s.configured = true
    · rw [bigStep_dispatched hd hc]
      by_cases hi : i = .selfTest
      · subst hi
        obtain ⟨r, hr, hlen⟩ := bigSelfTest_threeAnswers (p := p) (s := s) d1 d2 d3
        exact ⟨r, hr, hlen, fun hne => absurd rfl hne⟩
      · obtain ⟨r, e, hr, htxns⟩ := bigCommand_oneTransaction (p := p) (ds := [d2, d3]) (s := s) hi d1
        exact ⟨r, hr, by simp [htxns]⟩
    · simp only [not_or, Bool.not_eq_true] at hc
      exact ⟨_, bigStep_refused hd hc.1 hc.2, by simp⟩

/-- What a big step does to the state it starts from (R106): nothing, or what CONFIGURE writes, or what a capture writes. -/
inductive BigStateCase (p : Params) (s : State) : State → Prop where
  | kept : BigStateCase p s s
  | configured (range : BitVec 2) (asel : BitVec 1) : BigStateCase p s (configureState range asel s)
  | captured (b : Six) : BigStateCase p s (capture p b s)

/-- R101 to R104: the big step leaves the sequencer to the micro-steps. -/
theorem BigStateCase.seq_eq {u : State} (h : BigStateCase p s u) : u.seq = s.seq := by
  cases h <;> rfl

theorem bigOne_state {x : Txn} {d : Draw} {onOk : Six → State × Sample} (h : ∀ b, BigStateCase p s (onOk b).1) :
    BigStateCase p s (bigOne x d s onOk).state := by
  cases d with
  | fail => exact .kept
  | ok b => exact h b

theorem bigSelfTest_state {r : BigResult} (h : bigSelfTest p s ds = some r) : BigStateCase p s r.state := by
  unfold bigSelfTest at h
  split at h
  · cases h
    exact .captured _
  · cases h
    exact .kept
  · cases h
    exact .kept
  · cases h

theorem bigCommand_state {i : Instr} {r : BigResult} (h : bigCommand p i ds s = some r) : BigStateCase p s r.state := by
  by_cases hi : i = .selfTest
  · subst hi
    exact bigSelfTest_state h
  · cases ds with
    | nil => simp [bigCommand_noAnswer hi] at h
    | cons d ds =>
      cases i with
      | selfTest => exact absurd rfl hi
      | configure range asel =>
        cases h
        exact bigOne_state fun _ => .configured range asel
      | readAccel =>
        cases h
        exact bigOne_state .captured
      | powerOn | readOffset | writeOffset | readDevid =>
        cases h
        exact bigOne_state fun _ => .kept

theorem bigStep_state {r : BigResult} (h : bigStep p w ds s = some r) : BigStateCase p s r.state := by
  unfold bigStep at h
  split at h
  · cases h
    exact .kept
  · split at h
    · exact bigCommand_state h
    · cases h
      exact .kept

/-- A completion in the state of a big step from an idle engine: that state, with what the outside sees (log 2, R55, R105). -/
theorem finished_bigState {u : State} (hi : Inv s) (hs : s.seq = .idle) (hu : BigStateCase p s u) (r : Response)
    (h : List TxnEvent) (ws : List Word) (es : List Event) : finished r h u.filt ws es u =
      { u with hostWords := ws, events := es, responses := r :: s.responses, history := h } := by
  obtain ⟨h1, h2, h3, h4, h5, h6, h7⟩ := idle_latches hi hs
  cases hu <;> simp only [finished, State.filt, configureState, capture, hs, h1, h2, h3, h4, h5, h6, h7]

end BigStep

/-- The run from `u` agrees with a big step of `s` (R106): it takes one answer of `ds` for each transaction of the big step and
completes in its state, or it takes them all and is still busy. -/
def runAgrees (ds : List Draw) (ws : List Word) (es : List Event) (s u : State) : Option BigResult → Prop
  | some r => runSteps r.txns.length u = .next (finished r.rsp (r.txns.reverse ++ s.history) r.state.filt ws
      ((ds.drop r.txns.length).map .answer ++ es) r.state)
  | none => ∃ t, runSteps ds.length u = .next t ∧ t.seq ≠ .idle ∧ t.events = es ∧ t.responses = s.responses

section Runs

variable {w : Word} {ws : List Word} {es : List Event} {s : State}

/-- A command of one transaction, from its issue on, takes one answer. -/
theorem runAgrees_oneTransaction {i : Instr} (hd : decode w = .cmd i) (hi : i ≠ .selfTest) : ∀ ds : List Draw,
    runAgrees ds ws es s (inProgress .xfer w (firstTxn Config.params i s) s.history 0#3 ⟨0#32, 0#32, 0#32⟩ s.filt ws
      (ds.map .answer ++ es) s) (bigCommand Config.params i ds s)
  | [] => by
    rw [bigCommand_noAnswer hi]
    exact ⟨_, rfl, by simp [inProgress], rfl, rfl⟩
  | d :: ds => by
    obtain ⟨r, e, hr, htxns⟩ := bigCommand_oneTransaction (p := Config.params) (ds := ds) (s := s) hi d
    have hstep := step_xfer (h := s.history) (ws := ws) (es := ds.map .answer ++ es) hd hi hr
    rw [hr]
    simp only [runAgrees]
    rw [htxns] at hstep ⊢
    exact runSteps_succ hstep

/-- R161, `ST_RESTORE`: the completion of the big step's pseudocode (R162), for either answer. -/
theorem step_restore (hd : decode w = .cmd .selfTest) {x : Txn} {h : List TxnEvent} {fl : BitVec 3} {d f : Sample} (a : Draw)
    (done : List TxnEvent) (u : State) :
    step (inProgress .stRestore w x h fl d f ws (.answer a :: es) s) =
      .next (finished (bigRestore Config.params fl d done a u).rsp (answered x a :: h) f ws es s) := by
  cases a with
  | fail => exact step_restore_fail hd
  | ok b => exact step_restore_ok b hd

/-- SELF_TEST, from its enter write on, takes the answers of its pseudocode's path (R162): three, or two after a failed enter
write. -/
theorem runAgrees_selfTest (hd : decode w = .cmd .selfTest) : ∀ ds : List Draw,
    runAgrees ds ws es s (inProgress .stEnter w (enterTxn Config.params s) s.history 0#3 ⟨0#32, 0#32, 0#32⟩ s.filt ws
      (ds.map .answer ++ es) s) (bigSelfTest Config.params s ds)
  | [] => ⟨_, rfl, by simp [inProgress], rfl, rfl⟩
  | [.fail] => ⟨_, runSteps_succ (step_enter_fail hd), by simp [inProgress], rfl, rfl⟩
  | [.ok b1] => ⟨_, runSteps_succ (step_enter_ok b1 hd), by simp [inProgress], rfl, rfl⟩
  | [.ok b1, .fail] =>
    ⟨_, (runSteps_succ (step_enter_ok b1 hd)).trans (runSteps_succ (step_capture_fail hd)), by simp [inProgress], rfl, rfl⟩
  | [.ok b1, .ok b] =>
    ⟨_, (runSteps_succ (step_enter_ok b1 hd)).trans (runSteps_succ (step_capture_ok b hd)), by simp [inProgress], rfl, rfl⟩
  | .fail :: a :: _ => (runSteps_succ (step_enter_fail hd)).trans (runSteps_succ (step_restore hd a _ s))
  | .ok b1 :: .fail :: a :: _ =>
    (runSteps_succ (step_enter_ok b1 hd)).trans <| (runSteps_succ (step_capture_fail hd)).trans <|
      runSteps_succ (step_restore hd a _ s)
  | .ok b1 :: .ok b :: a :: _ =>
    (runSteps_succ (step_enter_ok b1 hd)).trans <| (runSteps_succ (step_capture_ok b hd)).trans <|
      runSteps_succ (step_restore hd a _ (capture Config.params b s))

/-- The run of an offered word, from its accept step on, agrees with its big step. -/
theorem runAgrees_offered {ds : List Draw} (ho : Offered w ds ws es s) :
    ∃ u, step s = .next u ∧ runAgrees ds ws es s u (bigStep Config.params w ds s) := by
  cases hd : decode w with
  | illegal why =>
    rw [bigStep_illegal hd]
    exact ⟨_, step_offered_illegal ho hd, rfl⟩
  | cmd i =>
    by_cases hc : i.isConfigure = true ∨ s.configured = true
    · rw [bigStep_dispatched hd hc]
      refine ⟨_, step_offered ho hd hc, ?_⟩
      by_cases hi : i = .selfTest
      · subst hi
        exact runAgrees_selfTest hd ds
      · rw [if_neg hi]
        exact runAgrees_oneTransaction hd hi ds
    · simp only [not_or, Bool.not_eq_true] at hc
      rw [bigStep_refused hd hc.1 hc.2]
      exact ⟨_, step_offered_refused ho hd hc.1 hc.2, rfl⟩

end Runs

/-- Settles O19: the accept step and then the run of the waiting command, each against the big step's pseudocode. -/
theorem bigStepAgreesWithMicroSteps : Obligations.BigStepAgreesWithMicroSteps := by
  intro s w ds ws es ho
  obtain ⟨u, hstep, hrun⟩ := runAgrees_offered ho
  cases hr : bigStep Config.params w ds s with
  | some r =>
    rw [hr] at hrun
    refine (runSteps_succ hstep).trans (hrun.trans ?_)
    rw [finished_bigState ho.inv ho.idle (bigStep_state hr)]
  | none =>
    rw [hr] at hrun
    obtain ⟨t, ht, hbusy⟩ := hrun
    exact ⟨t, (runSteps_succ hstep).trans ht, hbusy⟩

/-- Settles O18: three answers are enough for the big step, and the micro-steps are one more than its transactions. -/
theorem everyCommandCompletesInFourMicroSteps : Obligations.EveryCommandCompletesInFourMicroSteps := by
  intro s w d1 d2 d3 ws es ho
  obtain ⟨r, hr, hthree, hone⟩ := bigStep_threeAnswers Config.params w d1 d2 d3 s
  have hrun := bigStepAgreesWithMicroSteps s w [d1, d2, d3] ws es ho
  rw [hr] at hrun
  have hidle : r.state.seq = .idle := (bigStep_state hr).seq_eq.trans ho.idle
  have hlen : (r.txns.reverse ++ s.history).length = s.history.length + r.txns.length := by
    rw [List.length_append, List.length_reverse, Nat.add_comm]
  exact ⟨_, _, by omega, hrun, hidle, ⟨_, rfl⟩, hlen ▸ by omega, fun hne => hlen ▸ Nat.add_le_add_left (hone hne) _⟩

end Sys2Proof.Machine
end

section
/-! CONFIGURE (R120, R121) and POWER_ON (R122): the cases of a one-transaction command as whole next states, the run of an offered
CONFIGURE, and its write at the reference sensor (R57). -/

namespace Sys2Proof.Machine

section OneTransaction

variable {i : Instr} {s : State}

/-- R103: the refusal of an unconfigured engine. -/
theorem exec_refused (hs : s.seq = .idle) (hi : i.isConfigure = false) (hc : s.configured = false) :
    exec i s = .next (idleAfter ⟨0x03#8, 0#32, 0#32, 0#32⟩ s) :=
  exec_of_case (.refused hs hi hc)

/-- R103: the issue of a one-transaction command. -/
theorem exec_issued (hs : s.seq = .idle) (hi : i ≠ .selfTest) (hc : i.isConfigure = true ∨ s.configured = true) :
    exec i s = .next (waitingFor .xfer (firstTxn Config.params i s) s) := by
  rw [exec_of_case (.issued hs hc), if_neg hi]
  rfl

/-- R104: the `Ok` answer to a one-transaction command. -/
theorem exec_done {b : Six} (hs : s.seq = .xfer) (hi : i ≠ .selfTest) (ha : s.busAns = some (.ok b)) :
    exec i s = .next (okState Config.params i b s) :=
  exec_of_case (.done b hs hi ha)

/-- R221: with no failure recorded before, a failed transaction reports FAIL_MAIN alone and leaves the rest. -/
theorem failCommand_eq_idleAfter (hf : s.failLatch = 0#3) : failCommand s = idleAfter ⟨0x11#8, 0#32, 0#32, 0#32⟩ s := by
  simp only [failCommand, setFlag_failLatch, hf]
  rfl

/-- R104, R221: the `Fail` answer to a one-transaction command. -/
theorem exec_failed (hs : s.seq = .xfer) (hi : i ≠ .selfTest) (ha : s.busAns = some .fail) (hf : s.failLatch = 0#3) :
    exec i s = .next (idleAfter ⟨0x11#8, 0#32, 0#32, 0#32⟩ s) := by
  rw [exec_of_case (.failed hs hi ha), failCommand_eq_idleAfter hf]

end OneTransaction

/-- Settles O29: the words of its row, and its three cases as a command that needs no configured engine. -/
theorem configureEffect : Obligations.ConfigureEffect :=
  ⟨fun _ _ _ => decode_eq_cmd_iff.trans eq_encode_configure_iff, fun _ _ _ =>
    ⟨fun hs => exec_issued hs nofun (.inl rfl), fun _ hs ha => exec_done hs nofun ha,
      fun hs ha hf => exec_failed hs nofun ha hf⟩⟩

/-- Settles O31: its one word, and its four cases as a command that needs a configured engine. -/
theorem powerOnEffect : Obligations.PowerOnEffect :=
  ⟨fun _ => decode_eq_cmd_iff, fun _ =>
    ⟨fun hs hc => exec_refused hs rfl hc, fun hs hc => exec_issued hs nofun (.inr hc),
      fun _ hs ha => exec_done hs nofun ha, fun hs ha hf => exec_failed hs nofun ha hf⟩⟩

/-- A run that goes on takes its first step. -/
theorem runSteps_succ_next {n : Nat} {s t : State} (h : runSteps (n + 1) s = .next t) :
    ∃ u, step s = .next u ∧ runSteps n u = .next t := by
  simp only [runSteps, Host.Core.run] at h
  split at h
  · rename_i u hstep
    exact ⟨u, hstep, h⟩
  · cases h
  · cases h

/-- A run of `m + n` steps is the run of `n` steps from where `m` steps lead. -/
theorem runSteps_add {m n : Nat} {s t : State} (h : runSteps m s = .next t) : runSteps (m + n) s = runSteps n t := by
  induction m generalizing s with
  | zero =>
    cases h
    rw [Nat.zero_add]
  | succ m ih =>
    obtain ⟨u, hstep, hrun⟩ := runSteps_succ_next h
    rw [Nat.succ_add, runSteps_succ hstep, ih hrun]

/-- Every run keeps the invariant of the engine. -/
theorem runSteps_keeps_inv {n : Nat} {s t : State} (hi : Inv s) (h : runSteps n s = .next t) : Inv t := by
  induction n generalizing s with
  | zero =>
    cases h
    exact hi
  | succ n ih =>
    obtain ⟨u, hstep, hrun⟩ := runSteps_succ_next h
    exact ih (everyStepKeepsInvariant s u hi hstep) hrun

/-- An idle `s` after a CONFIGURE answered `Ok` (R120): its committed fields, its response and its write; the outside agents hold
`ws` and `es`. -/
def afterConfigure (range : BitVec 2) (asel : BitVec 1) (b : Six) (ws : List Word) (es : List Event) (s : State) : State :=
  { configureState range asel s with
    hostWords := ws, events := es, responses := responseOf .ok 0#3 0#32 0#32 0#32 :: s.responses,
    history := answered (configureTxn Config.params range asel) (.ok b) :: s.history }

/-- The two micro-steps of an offered CONFIGURE answered `Ok`, from its pseudocode (R106, R120). -/
theorem runSteps_configure {range : BitVec 2} {asel : BitVec 1} {b : Six} {ws : List Word} {es : List Event} {s : State}
    (ho : Offered (encode (.configure range asel)) [.ok b] ws es s) :
    runSteps 2 s = .next (afterConfigure range asel b ws es s) := by
  have hrun := bigStepAgreesWithMicroSteps s _ _ ws es ho
  rw [bigStep_dispatched (decode_encode _) (.inl rfl)] at hrun
  exact hrun

/-- Settles O30: the first CONFIGURE leaves an idle engine that is offered the second, which commits the same fields again. -/
theorem configureIsIdempotent : Obligations.ConfigureIsIdempotent := by
  intro s t t' range asel b b' ws es ho ht ht'
  have hfirst := runSteps_configure ho
  obtain rfl := Host.Outcome.next.inj (ht.symm.trans hfirst)
  have hoffered : Offered (encode (.configure range asel)) [.ok b'] ws es
      (afterConfigure range asel b (encode (.configure range asel) :: ws) (.present :: .answer (.ok b') :: es) s) :=
    ⟨runSteps_keeps_inv ho.inv hfirst, ho.idle, rfl, rfl⟩
  have hboth := (runSteps_add (n := 2) hfirst).trans (runSteps_configure hoffered)
  obtain rfl := Host.Outcome.next.inj (ht'.symm.trans hboth)
  exact ⟨⟨⟨rfl, rfl, rfl⟩, ⟨rfl, rfl, rfl⟩, rfl, rfl, rfl, rfl, rfl, rfl, rfl⟩, rfl, rfl, rfl, rfl, ho.idle⟩

/-- R24: the sensitivity of each range code. -/
theorem sens_toNat (rc : BitVec 2) : (sens rc).toNat = 256 / 2 ^ rc.toNat := by
  revert rc
  decide

/-- R57: a write answered `Ok` at the sensor's own address puts its bytes into the store, and no more. -/
theorem refSensor_write_ok {home : List SlaveAddr} {m m' : Memory} {a : SlaveAddr} (ha : a ∈ home) (reg : Byte)
    (data : List Byte) (b : Six) :
    refSensor home m (answered (writeTxn a reg data) (.ok b)) m' ↔ m' = m.writeBytes reg.toNat data :=
  iff_of_eq (if_pos ha)

/-- Settles O51: the run's one transaction is the data-format write, and the sensor's store is written at that register alone. -/
theorem configureProgramsDataFormat : Obligations.ConfigureProgramsDataFormat := by
  intro s range asel b ws es ho
  refine ⟨_, _, runSteps_configure ho, rfl, rfl, sens_toNat range, fun home m m' ha hwf hsensor => ?_⟩
  obtain rfl : m' = m.write 0x31 (rangeByte range) := (refSensor_write_ok ha regDataFormat [rangeByte range] b).mp hsensor
  have hread := Memory.read_write hwf 0x31 (v := rangeByte range)
  refine ⟨Memory.wf_write (by decide) hwf, ?_, fun k hk => ?_⟩
  · rw [hread, if_pos rfl]
    rfl
  · rw [hread, if_neg hk]

end Sys2Proof.Machine
end

section
/-! Acquisition (R140 to R147): the scaling engine is exact, the value each axis takes in a capture (R144, R180), and READ_ACCEL. -/

namespace Sys2Proof.Machine

/-- R24: the scale factor of each range code. -/
theorem scaleFactor_toNat (rc : BitVec 2) : (scaleFactor rc).toNat = 2 ^ (8 + rc.toNat) := by
  revert rc
  decide

/-- R24, R142: sensitivity and scale factor of a range cancel to the fraction bits of a G-word. -/
theorem scaleFactor_mul_sens (rc : BitVec 2) : (scaleFactor rc).toNat * (sens rc).toNat = 2 ^ 16 := by
  revert rc
  decide

/-- R141, this hardware's sign interpretation. -/
theorem channelValue_signed {p : Params} (hp : p.rawSigned = true) (v : BitVec 16) : channelValue p v = v.toInt :=
  if_pos hp

/-- R141, the legacy sign interpretation. -/
theorem channelValue_unsigned {p : Params} (hp : p.rawSigned = false) (v : BitVec 16) : channelValue p v = v.toNat := by
  simp [channelValue, hp]

/-- R141: a signed channel value is a 16-bit two's complement number. -/
theorem channelValue_signed_bounds {p : Params} (hp : p.rawSigned = true) (v : BitVec 16) :
    -(2 ^ 15) ≤ channelValue p v ∧ channelValue p v ≤ 2 ^ 15 - 1 := by
  rw [channelValue_signed hp]
  exact ⟨v.le_toInt, Int.le_sub_one_of_lt v.toInt_lt⟩

/-- R141: an unsigned channel value is a 16-bit natural number. -/
theorem channelValue_unsigned_bounds {p : Params} (hp : p.rawSigned = false) (v : BitVec 16) :
    0 ≤ channelValue p v ∧ channelValue p v ≤ 2 ^ 16 - 1 := by
  rw [channelValue_unsigned hp]
  have hv : v.toNat < 2 ^ 16 := v.isLt
  omega

/-- R142: a scaled channel value does not wrap, whatever the sign interpretation. -/
theorem scale_channelValue_toInt (p : Params) (v : BitVec 16) (rc : BitVec 2) :
    (scale (channelValue p v) rc).toInt = channelValue p v * ((scaleFactor rc).toNat : Int) := by
  cases hp : p.rawSigned with
  | true =>
    obtain ⟨hlo, hhi⟩ := channelValue_signed_bounds hp v
    exact scale_toInt (by omega) (by omega) rc
  | false =>
    obtain ⟨hlo, hhi⟩ := channelValue_unsigned_bounds hp v
    exact scale_toInt (by omega) (by omega) rc

/-- R142: bounds around zero of a value are multiplied by at most the largest scale factor. -/
theorem mul_scaleFactor_bounds {v lo hi : Int} (hlo : lo ≤ v) (hhi : v ≤ hi) (hlo0 : lo ≤ 0) (hhi0 : 0 ≤ hi) (rc : BitVec 2) :
    lo * 2048 ≤ v * ((scaleFactor rc).toNat : Int) ∧ v * ((scaleFactor rc).toNat : Int) ≤ hi * 2048 := by
  rcases scaleFactor_cases rc with hf | hf | hf | hf <;> rw [hf] <;> omega

/-- Settles O35: no scaled value wraps; the factor is a power of two, and with the sensitivity it makes 2^16. -/
theorem scalingIsExact : Obligations.ScalingIsExact := by
  intro p v rc
  rw [scale_channelValue_toInt]
  refine ⟨?_, ?_, fun hp => ?_, fun hp => ?_⟩
  · rw [scaleFactor_toNat]
    norm_cast
  · rw [mul_assoc, ← Nat.cast_mul, scaleFactor_mul_sens]
    rfl
  · obtain ⟨hlo, hhi⟩ := channelValue_signed_bounds hp v
    exact mul_scaleFactor_bounds hlo hhi (by decide) (by decide) rc
  · obtain ⟨hlo, hhi⟩ := channelValue_unsigned_bounds hp v
    exact mul_scaleFactor_bounds hlo hhi (by decide) (by decide) rc

/-- R140 to R142: the exact G-word of a lane. -/
theorem convertAxis_toInt (p : Params) (rc : BitVec 2) (low high : Byte) :
    (convertAxis p rc low high).toInt = channelValue p (raw16 low high) * 2 ^ (8 + rc.toNat) :=
  (scalingIsExact p (raw16 low high) rc).1

/-- R180: the filter's numerator at this hardware's coefficients, 1/5 and 4/5. -/
theorem filterNum_hardware (y x : Int) : filterNum Config.params y x = x + 4 * y := by
  show 1 * x + (5 - 1) * y = x + 4 * y
  omega

/-- R140 to R142, R180: a filter step over a scaled lane. -/
theorem filter_convertAxis_toInt (y : Word) (rc : BitVec 2) (low high : Byte) :
    (filter Config.params y (convertAxis Config.params rc low high)).toInt =
      ((high ++ low : BitVec 16).toInt * 2 ^ (8 + rc.toNat) + 4 * y.toInt).fdiv 5 := by
  rw [filter_toInt (by decide), filterNum_hardware, convertAxis_toInt, channelValue_signed rfl]
  rfl

section Lanes

variable (p : Params) (b : Six) (s : State)

theorem captured_x : (captured p b s).x = filter p s.filtX (convertAxis p s.cfgRange b.b0 b.b1) := rfl
theorem captured_y : (captured p b s).y = filter p s.filtY (convertAxis p s.cfgRange b.b2 b.b3) := rfl
theorem captured_z : (captured p b s).z = filter p s.filtZ (convertAxis p s.cfgRange b.b4 b.b5) := rfl

end Lanes

/-- Settles O33: each axis is one filter step over its own scaled lane. -/
theorem capturedValueOfEachAxis : Obligations.CapturedValueOfEachAxis := by
  intro b s
  rw [captured_x, captured_y, captured_z]
  exact ⟨filter_convertAxis_toInt .., filter_convertAxis_toInt .., filter_convertAxis_toInt ..⟩

/-- Settles O34: an axis reads its own two bytes, its own old value and the range. -/
theorem lanesAreIndependent : Obligations.LanesAreIndependent := by
  intro p b b' s s' hrange
  refine ⟨fun hlow hhigh hold => ?_, fun hlow hhigh hold => ?_, fun hlow hhigh hold => ?_⟩
  · rw [captured_x, captured_x, hlow, hhigh, hold, hrange]
  · rw [captured_y, captured_y, hlow, hhigh, hold, hrange]
  · rw [captured_z, captured_z, hlow, hhigh, hold, hrange]

/-- Settles O36: the exact values of the lane and of its filter step, at each of the four range codes. -/
theorem negativeExampleAtEveryRange : Obligations.NegativeExampleAtEveryRange := by
  intro rc
  rw [convertAxis_toInt, convertAxis_toInt, filter_convertAxis_toInt]
  revert rc
  decide

/-- Settles O32: its one word, and its four cases as a command that needs a configured engine. -/
theorem readAccelEffect : Obligations.ReadAccelEffect :=
  ⟨fun _ => decode_eq_cmd_iff, fun _ =>
    ⟨fun hs hc => exec_refused hs rfl hc, fun hs hc => exec_issued hs nofun (.inr hc),
      fun _ _ hs ha hf => hf ▸ exec_done hs nofun ha, fun hs ha hf => exec_failed hs nofun ha hf⟩⟩

end Sys2Proof.Machine
end

section
/-! SELF_TEST (R160 to R166): the sequencer's rows as whole next states, the paths of its pseudocode to the one restoration write, and
what that write leaves at the reference sensor (R57). -/

namespace Sys2Proof.Machine

/-- R105, R161: the response that the sequencer's last row emits for the gathered flags. -/
theorem responseOf_codeOf (f : BitVec 3) (d0 d1 d2 : Word) :
    responseOf (codeOf f) f d0 d1 d2 =
      ⟨0#1 ++ (f ++ if f = 0#3 then 0#4 else 1#4), if f = 0#3 then d0 else 0#32, if f = 0#3 then d1 else 0#32,
        if f = 0#3 then d2 else 0#32⟩ := by
  by_cases hf : f = 0#3
  · subst hf
    rfl
  · simp only [codeOf, if_neg hf]
    rfl

theorem or_failRestore_ne_zero (f : BitVec 3) : f ||| failRestore ≠ 0#3 := by
  revert f
  decide

/-- R105, R161: the completion of the sequencer changes what a completion changes, and no more. -/
theorem finishSelfTest_eq_idleAfter (s : State) : finishSelfTest s = idleAfter
    (responseOf (codeOf s.failLatch) s.failLatch s.dataLatch0 s.dataLatch1 s.dataLatch2) s := rfl

/-- R161: a failed restoration write sends no data, whatever was captured. -/
theorem finishSelfTest_setFlag_failRestore (s : State) : finishSelfTest (setFlag failRestore s) =
    idleAfter ⟨0#1 ++ ((s.failLatch ||| failRestore) ++ 1#4), 0#32, 0#32, 0#32⟩ s := by
  have hne := or_failRestore_ne_zero s.failLatch
  rw [finishSelfTest_eq_idleAfter, setFlag_failLatch, responseOf_codeOf]
  simp only [if_neg hne]
  rfl

/-- Settles O37: the refusal, the issue of the enter write, and the six rows of the phases that wait for an answer. -/
theorem selfTestSequencerRows : Obligations.SelfTestSequencerRows := by
  intro s
  refine ⟨fun hs hc => exec_refused hs rfl hc, fun hs hc => exec_of_case (.issued hs (.inr hc)),
    fun b hs ha => exec_of_case (.enterOk b rfl hs ha), fun hs ha => exec_of_case (.enterFail rfl hs ha),
    fun b f hs ha hf => hf ▸ exec_of_case (.captureOk b rfl hs ha), fun hs ha => exec_of_case (.captureFail rfl hs ha),
    fun b hs ha => ?_, fun hs ha => ?_⟩
  · rw [exec_of_case (.restoreOk b rfl hs ha), finishSelfTest_eq_idleAfter, responseOf_codeOf]
  · rw [exec_of_case (.restoreFail rfl hs ha), finishSelfTest_setFlag_failRestore]
    rfl

/-- R106, R162: the big step of SELF_TEST's word on a configured state is its pseudocode. -/
theorem bigStep_selfTest {p : Params} {ds : List Draw} {s : State} (hc : s.configured = true) :
    bigStep p 0x40000000#32 ds s = bigSelfTest p s ds :=
  bigStep_dispatched (decode_encode .selfTest) (.inr hc)

/-- R162: the response after the restoration write, by its answer. -/
theorem bigRestore_rsp (p : Params) (fl : BitVec 3) (d : Sample) (done : List TxnEvent) (a : Draw) (u : State) :
    (bigRestore p fl d done a u).rsp =
      if a = .fail then responseOf (codeOf (fl ||| failRestore)) (fl ||| failRestore) d.x d.y d.z
      else responseOf (codeOf fl) fl d.x d.y d.z := by
  cases a with
  | fail => exact (if_pos rfl).symm
  | ok b => exact (if_neg nofun).symm

/-- The micro-steps of an offered SELF_TEST on a path that its pseudocode completes (R106, R162). -/
theorem runSteps_selfTest {ds : List Draw} {ws : List Word} {es : List Event} {s : State} {r : BigResult} {rsp : Response}
    (hc : s.configured = true) (hr : bigSelfTest Config.params s ds = some r) (hrsp : r.rsp = rsp)
    (ho : Offered 0x40000000#32 ds ws es s) :
    runSteps (r.txns.length + 1) s = .next { r.state with
      hostWords := ws, events := (ds.drop r.txns.length).map .answer ++ es,
      responses := rsp :: s.responses, history := r.txns.reverse ++ s.history } := by
  have hrun := bigStepAgreesWithMicroSteps s _ ds ws es ho
  rw [bigStep_selfTest hc, hr] at hrun
  exact hrsp ▸ hrun

/-- Settles O38: each combination runs as its path of the pseudocode, for either answer to the restoration write. -/
theorem selfTestSixOutcomes : Obligations.SelfTestSixOutcomes := by
  intro s b1 b a3 ws es hc
  refine ⟨fun ho => ?_, fun ho => ?_, fun ho => ?_⟩
  · exact runSteps_selfTest hc rfl (bigRestore_rsp ..) ho
  · cases a3 <;> exact runSteps_selfTest hc rfl (bigRestore_rsp ..) ho
  · cases a3 <;> exact runSteps_selfTest hc rfl (bigRestore_rsp ..) ho

section Paths

variable {p : Params} {s : State} {ds : List Draw} {r : BigResult}

/-- The paths of SELF_TEST's pseudocode (R162): each comes to the restoration write, which the configuration alone decides, after the
enter write and at most the data read, with no FAIL_RESTORE before its answer. -/
theorem bigSelfTest_restores (h : bigSelfTest p s ds = some r) :
    ∃ fl d done a u, r = bigRestore p fl d done a u ∧ restoreTxn p u = restoreTxn p s ∧ fl.getLsbD 2 = false ∧
      (done.map (·.txn) = [enterTxn p s] ∨ done.map (·.txn) = [enterTxn p s, dataTxn p s]) := by
  unfold bigSelfTest at h
  split at h
  · cases h
    exact ⟨_, _, _, _, _, rfl, rfl, rfl, .inr rfl⟩
  · cases h
    exact ⟨_, _, _, _, _, rfl, rfl, rfl, .inr rfl⟩
  · cases h
    exact ⟨_, _, _, _, _, rfl, rfl, rfl, .inl rfl⟩
  · cases h

/-- R162: the transactions of a completed SELF_TEST. -/
theorem bigSelfTest_txns (h : bigSelfTest p s ds = some r) :
    r.txns.map (·.txn) = [enterTxn p s, restoreTxn p s] ∨
      r.txns.map (·.txn) = [enterTxn p s, dataTxn p s, restoreTxn p s] := by
  obtain ⟨fl, d, done, a, u, rfl, hrestore, -, hdone⟩ := bigSelfTest_restores h
  simp only [bigRestore, List.map_append, answered, List.map_cons, List.map_nil, hrestore]
  exact hdone.imp (fun hd => by rw [hd]; rfl) (fun hd => by rw [hd]; rfl)

end Paths

/-- R160: the two data-format bytes differ in the self-test bit. -/
theorem stEnterByte_ne_stRestoreByte (rc : BitVec 2) : stEnterByte rc ≠ stRestoreByte rc := by
  revert rc
  decide

theorem enterTxn_ne_restoreTxn (p : Params) (s : State) : enterTxn p s ≠ restoreTxn p s := by
  simp [enterTxn, restoreTxn, writeTxn, stEnterByte_ne_stRestoreByte]

theorem dataTxn_ne_restoreTxn (p : Params) (s : State) : dataTxn p s ≠ restoreTxn p s := nofun

/-- Settles O39: on both paths the restoration write comes last, and neither the enter write nor the data read equals it. -/
theorem selfTestRestoresOnEveryPath : Obligations.SelfTestRestoresOnEveryPath := by
  intro s ds r hc hr
  rw [bigStep_selfTest hc] at hr
  have henter := enterTxn_ne_restoreTxn Config.params s
  have hdata := dataTxn_ne_restoreTxn Config.params s
  show _ = some (enterTxn Config.params s) ∧ _ = some (restoreTxn Config.params s) ∧
    List.count (restoreTxn Config.params s) _ = 1
  rcases bigSelfTest_txns hr with htxns | htxns <;> rw [htxns] <;> simp [henter, hdata]

/-- A transaction names registers of the store only (R50). -/
def Txn.inStore (t : Txn) : Prop := t.span.1 + t.span.2 ≤ 256

theorem bigSelfTest_inStore {p : Params} {s : State} {ds : List Draw} {r : BigResult} (h : bigSelfTest p s ds = some r)
    {e : TxnEvent} (he : e ∈ r.txns) : e.txn.inStore := by
  have hwrite : 0x31 + 1 ≤ 256 := by decide
  have hread : 0x32 + 6 ≤ 256 := by decide
  have hmem : e.txn ∈ [enterTxn p s, dataTxn p s, restoreTxn p s] := by
    have hmap := List.mem_map_of_mem (f := (·.txn)) he
    rcases bigSelfTest_txns h with htxns | htxns <;> rw [htxns] at hmap
    · exact List.cons_subset_cons _ (List.subset_cons_self _ _) hmap
    · exact hmap
  simp only [List.mem_cons, List.not_mem_nil, or_false] at hmem
  rcases hmem with henter | hdata | hrestore
  · exact henter ▸ hwrite
  · exact hdata ▸ hread
  · exact hrestore ▸ hwrite

/-- R57: a transaction inside the store, whatever its answer, keeps the canonical form. -/
theorem refSensor_keeps_wf {home : List SlaveAddr} {m m' : Memory} {e : TxnEvent} (h : refSensor home m e m')
    (he : e.txn.inStore) (hm : m.wf = true) : m'.wf = true := by
  unfold refSensor at h
  split at h
  · unfold sensorStep at h
    split at h
    · rename_i htxn _
      rw [htxn] at he
      exact h ▸ Memory.wf_writeBytes _ he hm
    · exact h.1 ▸ hm
    · exact h.1
  · exact h ▸ hm

/-- R57, R65: over an exclusive bus, each transaction of the log finds a store in canonical form if the first one does. -/
theorem sensorLog_before_wf {home : List SlaveAddr} {first e : BusEntry} : ∀ {log : List BusEntry}, sensorLog home log →
    (∀ x, x ∈ log → x.event.txn.inStore) → log.head? = some first → first.before.wf = true → e ∈ log → e.before.wf = true
  | [], _, _, _, _, he => absurd he List.not_mem_nil
  | [a], _, _, ha, hm, he => by
    obtain rfl : a = first := by simpa using ha
    obtain rfl : e = a := by simpa using he
    exact hm
  | a :: b :: rest, ⟨⟨hab, hbus⟩, hstep⟩, hin, ha, hm, he => by
    obtain rfl : a = first := by simpa using ha
    have hb : b.before.wf = true := hab ▸ refSensor_keeps_wf (hstep a (by simp)) (hin a (by simp)) hm
    rcases List.mem_cons.mp he with rfl | he
    · exact hm
    · exact sensorLog_before_wf ⟨hbus, fun x hx => hstep x (List.mem_cons_of_mem a hx)⟩
        (fun x hx => hin x (List.mem_cons_of_mem a hx)) rfl hb he

/-- R162, R105: STATUS bit 6 is FAIL_RESTORE, clear exactly when the restoration write is answered `Ok`. -/
theorem bigRestore_bit6 (p : Params) {fl : BitVec 3} (hfl : fl.getLsbD 2 = false) (d : Sample) (done : List TxnEvent) (a : Draw)
    (u : State) : (bigRestore p fl d done a u).rsp.status.getLsbD 6 = false ↔ ∃ b, a = .ok b := by
  have hbit := fun c f d0 d1 d2 => responseOf_flagBit c f d0 d1 d2 (k := 2) (by decide)
  cases a with
  | ok b => exact iff_of_true ((hbit ..).trans hfl) ⟨b, rfl⟩
  | fail =>
    have hset : (fl ||| failRestore).getLsbD 2 = true := by
      rw [BitVec.getLsbD_or, hfl]
      rfl
    exact iff_of_false (by simp [bigRestore, hbit, hset]) nofun

/-- R53: a write is answered `Ok` without bytes exactly when the draw is `Ok`. -/
theorem answered_restoreTxn_ok (p : Params) (s : State) (a : Draw) :
    (answered (restoreTxn p s) a).answer = some (.ok []) ↔ ∃ b, a = .ok b := by
  cases a with
  | ok b => exact iff_of_true rfl ⟨b, rfl⟩
  | fail => exact iff_of_false nofun nofun

/-- Settles O52: the log's last event is the restoration write; answered `Ok`, it puts the range bits into the store it finds, which
the transactions before it left in canonical form. -/
theorem selfTestLeavesDataFormatRestored : Obligations.SelfTestLeavesDataFormatRestored := by
  intro s ds r log first last home hc hhome hr hlog hsensor hfirst hwf hlast
  rw [bigStep_selfTest hc] at hr
  have hin : ∀ x, x ∈ log → x.event.txn.inStore := fun x hx =>
    bigSelfTest_inStore hr (hlog ▸ List.mem_map_of_mem hx)
  obtain ⟨fl, d, done, a, u, rfl, hrestore, hfl, -⟩ := bigSelfTest_restores hr
  have hevent : last.event = answered (restoreTxn Config.params s) a := by
    have hend := congrArg List.getLast? hlog
    simpa [hlast, bigRestore, hrestore] using hend
  rw [hevent, bigRestore_bit6 _ hfl, answered_restoreTxn_ok]
  refine ⟨Iff.rfl, ?_⟩
  rintro ⟨b, rfl⟩
  have hmem : last ∈ log := List.mem_of_getLast? hlast
  have hstep := hsensor.2 last hmem
  rw [hevent] at hstep
  have hafter := (refSensor_write_ok hhome regDataFormat [stRestoreByte s.cfgRange] b).mp hstep
  rw [hafter]
  exact (Memory.read_write (sensorLog_before_wf hsensor hin hfirst hwf hmem) 0x31 0x31 _).trans (if_pos rfl)

end Sys2Proof.Machine
end

section
/-! The low-pass filter (44_filter.md): one step as an exact floor between its operands (R180, R182), its fixed points and its run
under a constant input (R183, R184), and the variant without a filter (R185). -/

namespace Sys2Proof.Machine

/-- R8: the quotient is the one integer with the bounds of `floorDiv_bounds`. -/
theorem floorDiv_eq_iff {a d q : Int} (hd : 0 < d) : floorDiv a d = q ↔ q * d ≤ a ∧ a < (q + 1) * d :=
  ⟨fun h => h ▸ floorDiv_bounds a hd, fun ⟨hlow, hhigh⟩ => floorDiv_unique hd hlow hhigh⟩

/-- R180: a filter step moves the old value towards the input by `alphaNum / alphaDen` of their distance. -/
theorem filterNum_eq_add (p : Params) (y x : Int) : filterNum p y x = y * p.alphaDen + p.alphaNum * (x - y) := by
  unfold filterNum
  ring

section WellFormed

variable {p : Params}

theorem Params.wf_iff : p.wf = true ↔ 1 ≤ p.alphaNum ∧ p.alphaNum ≤ p.alphaDen := by
  simp only [Params.wf, Bool.and_eq_true, decide_eq_true_eq]

/-- R5: neither coefficient of a well-formed parameter set is zero. -/
theorem Params.wf_pos (hp : p.wf = true) : 0 < p.alphaNum ∧ 0 < p.alphaDen := by
  obtain ⟨hnum, hle⟩ := Params.wf_iff.mp hp
  exact ⟨hnum, hnum.trans hle⟩

/-- R5: the coefficient of the recurrence, `alphaNum / alphaDen`, is at most 1. -/
theorem Params.wf_ratio_le_one (hp : p.wf = true) : (p.alphaNum : ℚ) / p.alphaDen ≤ 1 := by
  obtain ⟨-, hle⟩ := Params.wf_iff.mp hp
  exact div_le_one_of_le₀ (by exact_mod_cast hle) (Nat.cast_nonneg _)

/-- R180: the value of a filter step, by the bounds of its quotient. -/
theorem filter_toInt_eq_iff (hp : p.wf = true) {y x : Word} {q : Int} : (filter p y x).toInt = q ↔
    q * p.alphaDen ≤ filterNum p y.toInt x.toInt ∧ filterNum p y.toInt x.toInt < (q + 1) * p.alphaDen := by
  obtain ⟨-, hd⟩ := Params.wf_pos hp
  rw [filter_toInt hp, floorDiv_eq_iff (by omega)]

/-- R181, R182: a capture stays within bounds that hold of the filter registers and of the scaled sample. -/
theorem captured_within (hp : p.wf = true) {lo hi : Int} {b : Six} {s : State} (hs : filterWithin lo hi s.filt)
    (hg : filterWithin lo hi (convert p b s.cfgRange)) : filterWithin lo hi (captured p b s) := by
  obtain ⟨hsx, hsy, hsz⟩ := hs
  obtain ⟨hgx, hgy, hgz⟩ := hg
  exact ⟨filter_within hp hsx hgx, filter_within hp hsy hgy, filter_within hp hsz hgz⟩

/-- R184: a filter step is below the exact step of the recurrence by less than 1. -/
theorem filter_near_exact (hp : p.wf = true) (y x : Word) :
    (p.alphaNum : ℚ) / p.alphaDen * x.toInt + (1 - (p.alphaNum : ℚ) / p.alphaDen) * y.toInt - 1 < (filter p y x).toInt ∧
    ((filter p y x).toInt : ℚ) ≤ (p.alphaNum : ℚ) / p.alphaDen * x.toInt + (1 - (p.alphaNum : ℚ) / p.alphaDen) * y.toInt := by
  obtain ⟨hlow, hhigh⟩ := (filter_toInt_eq_iff hp (y := y) (x := x)).mp rfl
  obtain ⟨-, hd⟩ := Params.wf_pos hp
  have hd : (0 : ℚ) < p.alphaDen := by exact_mod_cast hd
  have hexact : (p.alphaNum : ℚ) / p.alphaDen * x.toInt + (1 - (p.alphaNum : ℚ) / p.alphaDen) * y.toInt =
      (filterNum p y.toInt x.toInt : ℚ) / p.alphaDen := by
    unfold filterNum
    push_cast
    field_simp
  rw [hexact, sub_lt_iff_lt_add, div_lt_iff₀ hd, le_div_iff₀ hd]
  constructor
  · exact_mod_cast hhigh
  · exact_mod_cast hlow

end WellFormed

/-- Settles O44: the quotient fits the register, and the least and the greatest operand bound both operands. -/
theorem filterIsExactAndBounded : Obligations.FilterIsExactAndBounded := fun _ _ _ hp =>
  ⟨filter_toInt hp .., filter_within hp ⟨min_le_right .., le_max_right ..⟩ ⟨min_le_left .., le_max_left ..⟩⟩

/-- Settles O45: of the writes of one micro-step, reset and CONFIGURE write zeros, and a capture is within its inputs. -/
theorem filterStaysWithinItsInputs : Obligations.FilterStaysWithinItsInputs := by
  intro s t lo hi hlo hhi hs hg h
  have hzero : filterWithin lo hi ⟨0#32, 0#32, 0#32⟩ := ⟨⟨hlo, hhi⟩, ⟨hlo, hhi⟩, ⟨hlo, hhi⟩⟩
  cases step_regs h with
  | kept _ hf =>
    obtain ⟨hx, hy, hz⟩ := hf
    simpa only [State.filt, hx, hy, hz] using hs
  | reset es he ht => exact ht ▸ hzero
  | configured es b range asel he hd _ _ _ hf => exact hf ▸ hzero
  | captured es b he _ _ hf => exact hf ▸ captured_within (by decide) hs (hg b es he)

/-- Settles O46: the old value is the quotient exactly when the move towards the input is at least 0 and less than 1. -/
theorem filterFixedPoints : Obligations.FilterFixedPoints := by
  intro p y x hp
  rw [← BitVec.toInt_inj, filter_toInt_eq_iff hp, filterNum_eq_add, add_mul, one_mul]
  exact and_congr (le_add_iff_nonneg_right _) (add_lt_add_iff_left _)

/-- Settles O48: each step multiplies the distance to the exact recurrence by `1 - alpha` and adds less than 1, and `1 / alpha` is the
fixed point of that bound. -/
theorem filterTracksExactRecurrence : Obligations.FilterTracksExactRecurrence := by
  intro p x y0 n hp
  obtain ⟨hn, hd⟩ := Params.wf_pos hp
  have hn : (0 : ℚ) < p.alphaNum := by exact_mod_cast hn
  have hd : (0 : ℚ) < p.alphaDen := by exact_mod_cast hd
  induction n with
  | zero => exact ⟨sub_lt_self _ (div_pos hd hn), le_refl _⟩
  | succ n ih =>
    obtain ⟨ihlow, ihhigh⟩ := ih
    obtain ⟨hlow, hhigh⟩ := filter_near_exact hp (filterRun p x y0 n) x
    have hkeep : 0 ≤ 1 - (p.alphaNum : ℚ) / p.alphaDen := sub_nonneg.mpr (Params.wf_ratio_le_one hp)
    have hfix : (1 - (p.alphaNum : ℚ) / p.alphaDen) * (p.alphaDen / p.alphaNum) = p.alphaDen / p.alphaNum - 1 := by
      field_simp
    have hlow' := mul_le_mul_of_nonneg_left ihlow.le hkeep
    have hhigh' := mul_le_mul_of_nonneg_left ihhigh hkeep
    rw [mul_sub, hfix] at hlow'
    rw [filterRun_succ, exactRun]
    constructor <;> linarith

/-- R184: the exact recurrence in closed form: the distance to the input shrinks by `1 - alpha` at each step. -/
theorem exactRun_eq (p : Params) (x y0 : ℚ) (n : Nat) :
    exactRun p x y0 n = x + (y0 - x) * (1 - (p.alphaNum : ℚ) / p.alphaDen) ^ n := by
  induction n with
  | zero => simp [exactRun]
  | succ n ih =>
    rw [exactRun, ih]
    ring

section Hardware

/-- R180: a filter step of this hardware is the floor of `(x + 4 * y) / 5`. -/
theorem filter_hardware_bounds (y x : Word) : (filter Config.params y x).toInt * 5 ≤ x.toInt + 4 * y.toInt ∧
    x.toInt + 4 * y.toInt < ((filter Config.params y x).toInt + 1) * 5 := by
  rw [← filterNum_hardware]
  exact (filter_toInt_eq_iff (p := Config.params) (by decide)).mp rfl

variable {y x : Word}

/-- R183: from more than 4 below, the state rises, and not above the input. -/
theorem filter_rises (h : y.toInt < x.toInt - 4) :
    y.toInt < (filter Config.params y x).toInt ∧ (filter Config.params y x).toInt ≤ x.toInt := by
  have := filter_hardware_bounds y x
  omega

/-- R183: within 4 below the input the state rests. -/
theorem filter_rests (hlow : x.toInt - 4 ≤ y.toInt) (hhigh : y.toInt ≤ x.toInt) : filter Config.params y x = y := by
  have := filter_hardware_bounds y x
  exact BitVec.eq_of_toInt_eq (by omega)

/-- R183: from above, the state falls, and not below the input. -/
theorem filter_falls (h : x.toInt < y.toInt) :
    x.toInt ≤ (filter Config.params y x).toInt ∧ (filter Config.params y x).toInt < y.toInt := by
  have := filter_hardware_bounds y x
  omega

end Hardware

/-- A run whose distance to the input shrinks at each step, as long as it has not come to `Q`, comes to `Q`. -/
theorem filterRun_reaches {p : Params} {x : Word} {P Q : Word → Prop}
    (hstep : ∀ y, P y → Q y ∨
      (P (filter p y x) ∧ (x.toInt - (filter p y x).toInt).natAbs < (x.toInt - y.toInt).natAbs))
    (y : Word) (hy : P y) : ∃ n, Q (filterRun p x y n) := by
  induction hm : (x.toInt - y.toInt).natAbs using Nat.strong_induction_on generalizing y with
  | _ m ih =>
    rcases hstep y hy with hq | ⟨hnext, hlt⟩
    · exact ⟨0, hq⟩
    · obtain ⟨n, hn⟩ := ih _ (hm ▸ hlt) _ hnext rfl
      exact ⟨1 + n, by rwa [filterRun_add]⟩

/-- R183: from below, the run comes to within 4 of the input. -/
theorem filterRun_comes_within_four {y x : Word} (h : y.toInt ≤ x.toInt) :
    ∃ n, x.toInt - 4 ≤ (filterRun Config.params x y n).toInt ∧ (filterRun Config.params x y n).toInt ≤ x.toInt := by
  refine filterRun_reaches (P := fun y => y.toInt ≤ x.toInt) (Q := fun y => x.toInt - 4 ≤ y.toInt ∧ y.toInt ≤ x.toInt)
    (fun y hy => ?_) y h
  by_cases hnear : x.toInt - 4 ≤ y.toInt
  · exact .inl ⟨hnear, hy⟩
  · have := filter_rises (lt_of_not_ge hnear)
    exact .inr (by omega)

/-- R183: from above, the run comes to the input. -/
theorem filterRun_comes_to_input {y x : Word} (h : x.toInt ≤ y.toInt) : ∃ n, filterRun Config.params x y n = x := by
  refine filterRun_reaches (P := fun y => x.toInt ≤ y.toInt) (Q := (· = x)) (fun y hy => ?_) y h
  rcases hy.eq_or_lt with heq | hlt
  · exact .inl (BitVec.eq_of_toInt_eq heq.symm)
  · have := filter_falls hlt
    exact .inr (by omega)

/-- Settles O47: one step in each of the three regions, and the runs that these steps make up. -/
theorem filterApproachesConstantInput : Obligations.FilterApproachesConstantInput := by
  refine fun y x => ⟨filter_rises, filter_rests, filter_falls, fun h => ?_, fun h => filterRun_comes_to_input h.le⟩
  obtain ⟨n, hlow, hhigh⟩ := filterRun_comes_within_four h.le
  exact ⟨n, filter_rests hlow hhigh, hlow, hhigh⟩

/-- R184: from zero, the run does not pass an input of at least zero. -/
theorem filterRun_zero_le_input {x : Word} (hx : 0 ≤ x.toInt) (n : Nat) :
    (filterRun Config.params x 0#32 n).toInt ≤ x.toInt := by
  induction n with
  | zero => simpa using hx
  | succ n ih =>
    have := filter_hardware_bounds (filterRun Config.params x 0#32 n) x
    rw [filterRun_succ]
    omega

/-- Settles O49: below its input a step does not decrease; the lower bound is that of the exact recurrence at alpha = 1/5. -/
theorem filterIsMonotoneWithoutOvershoot : Obligations.FilterIsMonotoneWithoutOvershoot := by
  intro x n hx
  have hle := filterRun_zero_le_input hx n
  refine ⟨?_, hle, ?_⟩
  · have := filter_hardware_bounds (filterRun Config.params x 0#32 n) x
    rw [filterRun_succ]
    omega
  · obtain ⟨htrack, -⟩ := filterTracksExactRecurrence Config.params x 0#32 n (by decide)
    have hkeep : 1 - (Config.params.alphaNum : ℚ) / Config.params.alphaDen = 4 / 5 := by norm_num [Config.params]
    have hgap : (Config.params.alphaDen : ℚ) / Config.params.alphaNum = 5 := by norm_num [Config.params]
    have hexact : exactRun Config.params x.toInt (0#32).toInt n = x.toInt * (1 - (4 / 5) ^ n) := by
      rw [exactRun_eq, hkeep, BitVec.toInt_zero, Int.cast_zero]
      ring
    rwa [hexact, hgap] at htrack

section PassThrough

variable {p : Params} {b : Six} {s : State}

/-- R185: with equal coefficients the filter's value is its input. -/
theorem filter_passThrough (hp : p.wf = true) (heq : p.alphaNum = p.alphaDen) (y x : Word) : filter p y x = x := by
  obtain ⟨-, hd⟩ := Params.wf_pos hp
  have hnum : filterNum p y.toInt x.toInt = x.toInt * p.alphaDen := by
    rw [filterNum_eq_add, heq]
    ring
  have hd : (0 : Int) < p.alphaDen := by exact_mod_cast hd
  refine BitVec.eq_of_toInt_eq ((filter_toInt_eq_iff hp).mpr ?_)
  rw [hnum]
  exact ⟨le_refl _, mul_lt_mul_of_pos_right (lt_add_one _) hd⟩

/-- R144, R185: a capture through such a filter is the scaled sample. -/
theorem captured_passThrough (hp : p.wf = true) (heq : p.alphaNum = p.alphaDen) (b : Six) (s : State) :
    captured p b s = convert p b s.cfgRange := by
  simp only [captured, filter_passThrough hp heq]

/-- R104, R145: READ_ACCEL with its answer, under any parameter set. -/
theorem commandWith_readAccel_ok (hs : s.seq = .xfer) (ha : s.busAns = some (.ok b)) :
    commandWith p .readAccel s = .next (okState p .readAccel b s) := by
  rw [commandWith_oneTransaction p .readAccel s nofun]
  simp only [oneTransaction, hs, ha]

/-- R161: SELF_TEST's capture with its answer, under any parameter set. -/
theorem commandWith_selfTest_captureOk (hs : s.seq = .stCapture) (ha : s.busAns = some (.ok b)) :
    commandWith p .selfTest s = .next (toRestore p (captureToLatch p b s)) := by
  simp only [commandWith, selfTestWith, hs, ha]

end PassThrough

/-- Settles O50: both users of a capture put the captured sample, here the scaled one, into the filter and into their answer. -/
theorem passThroughVariantReturnsScaledSample : Obligations.PassThroughVariantReturnsScaledSample := by
  intro p hp heq
  have hcap := captured_passThrough hp heq
  refine ⟨filter_passThrough hp heq, hcap, fun s b g ha hg => ?_⟩
  obtain rfl : g = captured p b s := hg.trans (hcap b s).symm
  exact ⟨fun hs => commandWith_readAccel_ok hs ha, fun hs => commandWith_selfTest_captureOk hs ha⟩

end Sys2Proof.Machine
end

section
/-! Offset calibration and identification (45_offset_and_id.md): the effects of READ_OFFSET, WRITE_OFFSET and READ_DEVID (R200 to
R204), and the offsets' way through the reference sensor's store (R57, R203). -/

namespace Sys2Proof.Machine

/-- R103, R104, R221: the four cases of a one-transaction command that needs a configured engine, as whole next states. -/
theorem exec_oneTransaction_effect {i : Instr} (hi : i ≠ .selfTest) (hn : i.isConfigure = false) (s : State) :
    (s.seq = .idle → s.configured = false → exec i s = .next (idleAfter ⟨0x03#8, 0#32, 0#32, 0#32⟩ s)) ∧
    (s.seq = .idle → s.configured = true → exec i s = .next (waitingFor .xfer (firstTxn Config.params i s) s)) ∧
    (∀ b, s.seq = .xfer → s.busAns = some (.ok b) → exec i s = .next (okState Config.params i b s)) ∧
    (s.seq = .xfer → s.busAns = some .fail → s.failLatch = 0#3 →
      exec i s = .next (idleAfter ⟨0x11#8, 0#32, 0#32, 0#32⟩ s)) :=
  ⟨fun hs hc => exec_refused hs hn hc, fun hs hc => exec_issued hs hi (.inr hc),
    fun _ hs ha => exec_done hs hi ha, fun hs ha hf => exec_failed hs hi ha hf⟩

/-- Settles O41: its one word, and its four cases, with the first three answered bytes sign-extended. -/
theorem readOffsetEffect : Obligations.ReadOffsetEffect :=
  ⟨fun _ => decode_eq_cmd_iff, exec_oneTransaction_effect (i := .readOffset) nofun rfl⟩

/-- Settles O42: the words of its row, and its four cases, with the three codes in its one write. -/
theorem writeOffsetEffect : Obligations.WriteOffsetEffect :=
  ⟨fun _ _ _ _ => decode_eq_cmd_iff.trans eq_encode_writeOffset_iff,
    fun ox oy oz => exec_oneTransaction_effect (i := .writeOffset ox oy oz) nofun rfl⟩

/-- Settles O43: its one word, and its four cases, with the answered byte zero-extended. -/
theorem readDevidEffect : Obligations.ReadDevidEffect :=
  ⟨fun _ => decode_eq_cmd_iff, exec_oneTransaction_effect (i := .readDevid) nofun rfl⟩

section Store

variable {j k : Nat} {v : Byte}

theorem Memory.read_put_of_ne (h : j ≠ k) (m : Memory) : (Memory.put k v m).read j = m.read j := by
  unfold Memory.put
  split
  · rfl
  · exact if_neg h.symm

/-- A write leaves every other offset, in a store of any form. -/
theorem Memory.read_write_of_ne (h : j ≠ k) : ∀ m : Memory, (m.write k v).read j = m.read j
  | [] => Memory.read_put_of_ne h []
  | c :: m => by
    unfold Memory.write
    split
    · exact Memory.read_put_of_ne h _
    · split
      · rename_i hkc
        rw [Memory.read_put_of_ne h, Memory.read, if_neg (hkc ▸ h.symm)]
      · rw [Memory.read, Memory.read, Memory.read_write_of_ne h m]

/-- A write transaction leaves the offsets outside its run of registers. -/
theorem Memory.read_writeBytes_outside : ∀ (vs : List Byte) {m : Memory} {k : Nat}, j < k ∨ k + vs.length ≤ j →
    (m.writeBytes k vs).read j = m.read j
  | [], _, _, _ => rfl
  | v :: vs, m, k, h => by
    rw [List.length_cons] at h
    exact (Memory.read_writeBytes_outside vs (by omega)).trans (Memory.read_write_of_ne (by omega) m)

/-- A write transaction inside the store puts its `i`-th byte into its `i`-th register. -/
theorem Memory.read_writeBytes_at : ∀ (vs : List Byte) {m : Memory} {k i : Nat}, k + vs.length ≤ 256 → m.wf = true →
    i < vs.length → some ((m.writeBytes k vs).read (k + i)) = vs[i]?
  | v :: vs, m, k, 0, _, hm, _ => by
    have hhead : (m.write k v).read k = v := (Memory.read_write hm k k v).trans (if_pos rfl)
    exact congrArg some ((Memory.read_writeBytes_outside vs (.inl k.lt_succ_self)).trans hhead)
  | v :: vs, m, k, i + 1, hk, hm, hi => by
    rw [List.length_cons] at hk hi
    have htail := Memory.read_writeBytes_at vs (k := k + 1) (i := i) (by omega)
      (Memory.wf_write (k := k) (v := v) (by omega) hm) (by omega)
    rwa [Nat.add_right_comm] at htail

end Store

section Sensor

variable {home : List SlaveAddr} {m m' : Memory} {k : Nat}

/-- R53: a write names the run of registers that its data bytes go to. -/
theorem touches_write_eq_false_iff {a : SlaveAddr} {reg : Byte} {data : List Byte} :
    (Txn.write a (reg :: data)).touches k = false ↔ k < reg.toNat ∨ reg.toNat + data.length ≤ k :=
  (Bool.and_eq_false_iff ..).trans <|
    or_congr (decide_eq_false_iff_not.trans not_le) (decide_eq_false_iff_not.trans not_lt)

/-- R57: a transaction, whatever its answer, leaves the registers it does not name. -/
theorem refSensor_keeps_read {e : TxnEvent} (h : refSensor home m e m') (hk : e.txn.touches k = false) :
    m'.read k = m.read k := by
  unfold refSensor at h
  split at h
  · unfold sensorStep at h
    split at h
    · rename_i htxn _
      rw [htxn] at hk
      exact h ▸ Memory.read_writeBytes_outside _ (touches_write_eq_false_iff.mp hk)
    · rw [h.1]
    · exact h.2 k hk
  · rw [h]

/-- R57: a read answered `Ok` at the sensor's own address gives the store's bytes, but for those that stay draws. -/
theorem refSensor_read_ok {a : SlaveAddr} (ha : a ∈ home) {reg : Byte} {n i : Nat} {b : Six}
    (h : refSensor home m (answered (readTxn a reg n) (.ok b)) m') (hi : i < n) (hd : drawnOffset (reg.toNat + i) = false) :
    (b.toList.take n)[i]? = some (m.read (reg.toNat + i)) := by
  have hstep : sensorStep m (answered (readTxn a reg n) (.ok b)) m' := (if_pos ha).mp h
  exact hstep.2 i hi hd

/-- R57, R65: over an exclusive bus, a register that nothing between two transactions names reads at the second as the first left
it. -/
theorem sensorLog_keeps_read {last : BusEntry} : ∀ {mid : List BusEntry} {first : BusEntry},
    sensorLog home (first :: (mid ++ [last])) → (∀ x, x ∈ mid → x.event.txn.touches k = false) →
    last.before.read k = first.after.read k
  | [], _, ⟨⟨hbus, _⟩, _⟩, _ => by rw [hbus]
  | x :: mid, first, ⟨⟨hx, hbus⟩, hstep⟩, hmid => by
    obtain ⟨-, hrest⟩ := List.forall_mem_cons.mp hstep
    obtain ⟨hxk, hmid⟩ := List.forall_mem_cons.mp hmid
    calc last.before.read k
      _ = x.after.read k := sensorLog_keeps_read ⟨hbus, hrest⟩ hmid
      _ = x.before.read k := refSensor_keeps_read (hrest x List.mem_cons_self) hxk
      _ = first.after.read k := by rw [hx]

/-- R203: over an exclusive bus, an offset read answers the three bytes of an offset write before it, when nothing between them names
an offset register. -/
theorem readOffset_answers_written {p : Params} {s s' : State} {ox oy oz : Byte} {b b' : Six} {m0 m1 m2 m3 : Memory}
    {mid : List BusEntry} (hm : m0.wf = true) (hs : sa p s ∈ home) (hs' : sa p s' ∈ home)
    (hlog : sensorLog home (⟨m0, answered (writeOffsetTxn p ox oy oz s) (.ok b), m1⟩ ::
      (mid ++ [⟨m2, answered (readOffsetTxn p s') (.ok b'), m3⟩])))
    (hmid : ∀ x, x ∈ mid → ∀ k, 0x1E ≤ k → k ≤ 0x20 → x.event.txn.touches k = false) :
    b'.toList.take 3 = [ox, oy, oz] := by
  have hwrite : m1 = m0.writeBytes 0x1E [ox, oy, oz] :=
    (refSensor_write_ok hs regOfsX [ox, oy, oz] b).mp (hlog.2 _ List.mem_cons_self)
  have hread := hlog.2 ⟨m2, answered (readOffsetTxn p s') (.ok b'), m3⟩ (by simp)
  have hbyte : ∀ i, i < 3 → (b'.toList.take 3)[i]? = [ox, oy, oz][i]? := fun i hi =>
    have hstored : drawnOffset (0x1E + i) = false := by simp [drawnOffset]; omega
    calc (b'.toList.take 3)[i]?
      _ = some (m2.read (0x1E + i)) := refSensor_read_ok hs' hread hi hstored
      _ = some (m1.read (0x1E + i)) := congrArg some <| sensorLog_keeps_read hlog fun x hx =>
        hmid x hx _ (by omega) (by omega)
      _ = [ox, oy, oz][i]? := hwrite ▸ Memory.read_writeBytes_at [ox, oy, oz] (k := 0x1E) (by simp) hm hi
  exact List.ext_getElem?' hbyte

end Sensor

/-- The micro-steps of an offered command that its pseudocode completes on a configured engine (R106). -/
theorem runSteps_offered {i : Instr} {ds : List Draw} {ws : List Word} {es : List Event} {s : State} {r : BigResult}
    (ho : Offered (encode i) ds ws es s) (hc : s.configured = true) (hr : bigCommand Config.params i ds s = some r) :
    runSteps (r.txns.length + 1) s = .next { r.state with
      hostWords := ws, events := (ds.drop r.txns.length).map .answer ++ es,
      responses := r.rsp :: s.responses, history := r.txns.reverse ++ s.history } := by
  have hrun := bigStepAgreesWithMicroSteps s _ ds ws es ho
  rw [bigStep_dispatched (decode_encode i) (.inr hc), hr] at hrun
  exact hrun

/-- Settles O53: the two runs' transactions are the offset write and the offset read, so the read answers the written bytes, which the
response extends. -/
theorem offsetRoundTrip : Obligations.OffsetRoundTrip := by
  intro s s' ox oy oz b b' ws ws' es es' ho hc ho' hc'
  refine ⟨_, _, _, _, runSteps_offered ho hc rfl, rfl, runSteps_offered ho' hc' rfl, rfl, ?_⟩
  intro home m0 m1 m2 m3 mid hm hs hs' hlog hmid
  have hbytes : [b'.b0, b'.b1, b'.b2] = [ox, oy, oz] := readOffset_answers_written hm hs hs' hlog hmid
  obtain ⟨rfl, rfl, rfl⟩ : b'.b0 = ox ∧ b'.b1 = oy ∧ b'.b2 = oz := by simpa using hbytes
  rfl

end Sys2Proof.Machine
end

section
/-! Reset and hazards (70_reset_and_hazards.md): the reset event in any phase (R250), and the host's duty to complete POWER_ON before
an acquisition (R254). -/

namespace Sys2Proof.Machine

/-- The reset event is enabled in every phase and has one outcome (R250). -/
theorem step_reset {s : State} {es : List Event} (he : s.events = .reset :: es) :
    step s = .next (resetEvent Config.params { s with events := es }) :=
  step_of_case (.reset es he)

/-- Settles O55: the reset event has its one outcome in every phase, and an answer to no transaction only passes. -/
theorem resetEventAtAnyTime : Obligations.ResetEventAtAnyTime :=
  ⟨fun _ _ he => ⟨_, step_reset he, rfl, rfl, rfl, rfl, rfl, rfl, rfl, rfl, rfl, rfl, rfl, rfl, rfl, rfl, rfl⟩,
    fun _ d es ho he => step_of_case (.lateAnswer es d he ho)⟩

/-- Settles O56: the reset event's one outcome is the reset state with the four kept fields. -/
theorem resetKeepsHistoryAndHostWords : Obligations.ResetKeepsHistoryAndHostWords := fun _ _ _ he h =>
  Host.Outcome.next.inj (h.symm.trans (step_reset he))

/-- An exchange asks for a kind of command exactly when its word decodes to a command of that kind. -/
theorem Exchange.asks_eq_true_iff {kind : Instr → Bool} {e : Exchange} :
    e.asks kind = true ↔ ∃ i, decode e.word = .cmd i ∧ kind i = true := by
  unfold Exchange.asks
  cases decode e.word with
  | cmd i => simp
  | illegal why => simp

theorem Instr.isPowerOn_eq_true_iff {i : Instr} : Instr.isPowerOn i = true ↔ i = .powerOn := by
  cases i with
  | powerOn => exact iff_of_true rfl rfl
  | configure | readAccel | selfTest | readOffset | writeOffset | readDevid => exact iff_of_false nofun nofun

/-- R254: what it is to complete POWER_ON with OK. -/
theorem Exchange.completed_isPowerOn_iff {e : Exchange} :
    e.completed Instr.isPowerOn = true ↔ decode e.word = .cmd .powerOn ∧ e.response.status = 0x00#8 := by
  simp [Exchange.completed, Exchange.asks_eq_true_iff, Instr.isPowerOn_eq_true_iff]

/-- R103, R122, R221: a POWER_ON that answers OK was not refused, and its one write did not fail. -/
theorem bigStep_powerOn_ok {p : Params} {w : Word} {ds : List Draw} {s : State} {r : BigResult} (hd : decode w = .cmd .powerOn)
    (hr : bigStep p w ds s = some r) (hok : r.rsp.status = 0x00#8) : ∃ b, r.txns = [answered (powerOnTxn p s) (.ok b)] := by
  cases hc : s.configured with
  | false =>
    obtain rfl := Option.some.inj ((bigStep_refused hd rfl hc).symm.trans hr)
    exact absurd (show (0x03#8 : Byte) = 0x00#8 from hok) (by decide)
  | true =>
    rw [bigStep_dispatched hd (.inr hc)] at hr
    cases ds with
    | nil => cases hr
    | cons d ds =>
      obtain rfl := Option.some.inj hr
      cases d with
      | fail => exact absurd (show (0x11#8 : Byte) = 0x00#8 from hok) (by decide)
      | ok b => exact ⟨b, rfl⟩

/-- Settles O57: a configured engine runs both acquisitions; in the host's session, a POWER_ON completed with OK comes before the
acquisition, and its transaction is the measurement write. -/
theorem powerOnIsTheHostsObligation : Obligations.PowerOnIsTheHostsObligation := by
  refine ⟨fun s b ds hc => ?_, fun s b1 b a3 ds hc => ?_, fun s cmds q pre post e hq hkeeps hsplit he => ?_⟩
  · exact ⟨_, bigStep_dispatched (decode_encode .readAccel) (.inr hc), rfl, rfl⟩
  · exact ⟨_, bigStep_selfTest hc, rfl⟩
  · obtain hseen | ⟨x, hx, hdone⟩ := precededBy_at he (hsplit ▸ hkeeps)
    · cases hseen
    · obtain ⟨hd, hok⟩ := Exchange.completed_isPowerOn_iff.mp hdone
      have hmem : x ∈ q.exchanges := hsplit ▸ List.mem_append_left _ hx
      obtain ⟨s', ds, r, hr, hrsp, htxns⟩ := session_exchange hq hmem
      obtain ⟨b, hwrite⟩ := bigStep_powerOn_ok hd hr (hrsp ▸ hok)
      exact ⟨x, sa Config.params s', hx, htxns.trans hwrite⟩

end Sys2Proof.Machine
end
